-- ==== Sys2Proof/Word.lean ====
section
/-! DEFINITION. The words, numbers and small containers of the IJ742 (00, Conventions). -/

namespace Sys2Proof

abbrev Byte := BitVec 8
/-- A value of the 32-bit tick counter (00, Time). -/
abbrev Tick := BitVec 32
/-- A slot's generation (00, Generations). -/
abbrev Gen := BitVec 16
/-- A 48-bit logical block address, also a capacity in blocks (00, Blocks of data). -/
abbrev Lba := BitVec 48
/-- A 64-bit drive identity (00, Terms). -/
abbrev Fingerprint := BitVec 64
/-- A 16-bit saturating counter (00, Numbers and byte order). -/
abbrev Count16 := BitVec 16
/-- One bit for each slot, bit 0 for slot 0 (00, Bays and slots). -/
abbrev SlotMask := BitVec 8
/-- A slot, or the bay of the same number (00, Bays and slots). -/
abbrev Slot := Fin 8
/-- A drive tag (R45). -/
abbrev DriveTag := Fin 32

/-- One of the two server heads (00, Nodes and ports). -/
inductive Node where
  | a
  | b
  deriving DecidableEq, Repr

/-- "A node's partner is the other node" (00, Nodes and ports). -/
def Node.partner : Node → Node
  | .a => .b
  | .b => .a

/-- One value for each node. -/
structure Pair (α : Type) where
  ofA : α
  ofB : α
  deriving DecidableEq, Repr

/-- The value kept for a node. -/
def Pair.get {α : Type} (p : Pair α) : Node → α
  | .a => p.ofA
  | .b => p.ofB

/-- The pair with one node's value replaced. -/
def Pair.put {α : Type} (p : Pair α) (n : Node) (x : α) : Pair α :=
  match n with
  | .a => { p with ofA := x }
  | .b => { p with ofB := x }

/-- A fixed table with one of its entries replaced. -/
def putAt {α : Type} {k : Nat} (v : Vector α k) (i : Fin k) (x : α) : Vector α k :=
  v.set i.val x i.isLt

end Sys2Proof
end

