-- ==== Sys2Proof/Syntax.lean ====
section
/-! DEFINITION. The commands of the block: one constructor for each row of spec/opcode_table.json,
in the table's order. A frame a node sends carries its node; a REQ carries its request id (R155).
A slot operand is 0 to 7: a frame or request that names another is a PROTOCOL_FAULT or a
BAD_REQUEST and reaches no block (R152, R155). -/

namespace Sys2Proof

inductive Instr where
  /-- CMD (R47); the kind is the byte the frame carries. -/
  | cmd (n : Node) (slot : Slot) (tag : Byte) (kind : Byte) (gen : Gen) (lba : Lba) (count : BitVec 16)
  /-- DATA from a node (R61). -/
  | data (n : Node) (slot : Slot) (tag : Byte) (payload : List Byte)
  /-- CRC_CHECK_FAILED (R151), with the bytes received. -/
  | crcCheckFailed (n : Node) (frame : List Byte)
  /-- PROTOCOL_FAULT (R152), with the bytes received. -/
  | protocolFault (n : Node) (frame : List Byte)
  /-- HALTED_FRAME_DISCARD (R153), with the bytes received. -/
  | haltedFrameDiscard (n : Node) (frame : List Byte)
  /-- BAD_REQUEST (R155), with the bytes received. -/
  | badRequest (n : Node) (frame : List Byte)
  /-- IDENTIFY (R156). -/
  | identify (n : Node) (id : BitVec 16)
  /-- RESUME (R153). -/
  | resume (n : Node) (id : BitVec 16)
  /-- LINK_STATUS (R157). -/
  | linkStatus (n : Node) (id : BitVec 16)
  /-- HEARTBEAT (R26). -/
  | heartbeat (n : Node) (id : BitVec 16) (period : BitVec 16) (miss : Byte) (fast : Byte)
  /-- LEAVE (R36). -/
  | leave (n : Node) (id : BitVec 16)
  /-- SLOT_STATUS (R23). -/
  | slotStatus (n : Node) (id : BitVec 16) (slot : Slot)
  /-- CLAIM_FREE (R12). -/
  | claimFree (n : Node) (id : BitVec 16) (slot : Slot)
  /-- RELEASE (R15). -/
  | release (n : Node) (id : BitVec 16) (mask : SlotMask)
  /-- HANDOVER (R16). -/
  | handover (n : Node) (id : BitVec 16) (mask : SlotMask)
  /-- SET_SLOT (R6). -/
  | setSlot (n : Node) (id : BitVec 16) (slot : Slot) (policy quotaA quotaB : Byte)
  /-- HOLD (R125). -/
  | hold (n : Node) (id : BitVec 16) (slot : Slot)
  /-- UNHOLD (R126). -/
  | unhold (n : Node) (id : BitVec 16) (slot : Slot)
  /-- ADOPT (R127). -/
  | adopt (n : Node) (id : BitVec 16) (slot : Slot)
  /-- CLEAR_FAULT (R126). -/
  | clearFault (n : Node) (id : BitVec 16) (slot : Slot)
  /-- RESET_DRIVE (R128). -/
  | resetDrive (n : Node) (id : BitVec 16) (slot : Slot)
  /-- TAKE (R81). -/
  | take (n : Node) (id : BitVec 16) (mask : SlotMask)
  /-- CANCEL_TAKE (R85). -/
  | cancelTake (n : Node) (id : BitVec 16)
  /-- BATCH_STATUS (R97). -/
  | batchStatus (n : Node) (id : BitVec 16) (which : Byte)
  /-- SET_TIMING (R80), each value in milliseconds. -/
  | setTiming (n : Node) (id : BitVec 16) (w b p c l : BitVec 32)
  /-- READ_REPORT (R109). -/
  | readReport (n : Node) (id : BitVec 16) (slot : Slot) (first : Byte)
  /-- DISCARD_REPORT (R110). -/
  | discardReport (n : Node) (id : BitVec 16) (slot : Slot)
  /-- SET_WINDOW (R69). -/
  | setWindow (n : Node) (id : BitVec 16) (index : Byte) (slot : Slot) (first last : Lba) (kind : Byte)
  /-- CLEAR_WINDOW (R71). -/
  | clearWindow (n : Node) (id : BitVec 16) (index : Byte)
  /-- WINDOW_STATUS (R72). -/
  | windowStatus (n : Node) (id : BitVec 16)
  /-- START_AUDIT (R131). -/
  | startAudit (n : Node) (id : BitVec 16) (first last : Slot) (mode budget : Byte)
  /-- STEP_AUDIT (R138). -/
  | stepAudit (n : Node) (id : BitVec 16)
  /-- STOP_AUDIT (R138). -/
  | stopAudit (n : Node) (id : BitVec 16)
  /-- AUDIT_STATUS (R140). -/
  | auditStatus (n : Node) (id : BitVec 16)
  /-- FETCH_NOTICES (R147). -/
  | fetchNotices (n : Node) (id : BitVec 16)
  /-- SET_NOTICES (R148). -/
  | setNotices (n : Node) (id : BitVec 16) (enable : Byte) (mask : BitVec 32)
  /-- READ_SUMMARY (R149). -/
  | readSummary (n : Node) (id : BitVec 16)
  /-- STORE_STATUS (R162). -/
  | storeStatus (n : Node) (id : BitVec 16)
  /-- DRIVE_COMPLETION (R58); fingerprint and capacity are those of a tagged IDENTIFY answer (R113). -/
  | driveCompletion (bay : Slot) (tag : Nat) (status : BitVec 16) (fp : Fingerprint) (cap : Lba)
  /-- DRIVE_DATA_FRAME (R62). -/
  | driveDataFrame (bay : Slot) (tag : Nat) (payload : List Byte)
  /-- DRIVE_READY (R117). -/
  | driveReady (bay : Slot)
  /-- IDENTIFY_ANSWER, untagged (R118). -/
  | identifyAnswer (bay : Slot) (status : BitVec 16) (fp : Fingerprint) (cap : Lba)
  /-- DRIVE_LINK_LOSS (R123). -/
  | driveLinkLoss (bay : Slot)
  /-- PRESENCE_CHANGE (R114): the input now shows a drive (`true`) or none. -/
  | presenceChange (bay : Slot) (level : Bool)
  /-- INSERTION (R115). -/
  | insertion (bay : Slot)
  /-- REMOVAL (R116). -/
  | removal (bay : Slot)
  /-- LINK_TRAINING_COMPLETE (R150). -/
  | linkTrainingComplete (n : Node)
  /-- NODE_LINK_LOSS (R154). -/
  | nodeLinkLoss (n : Node)
  /-- TICK (R37). -/
  | tick
  /-- REFERENCE_LOST (R39). -/
  | referenceLost
  /-- REFERENCE_QUALIFIED (R38). -/
  | referenceQualified
  /-- REFERENCE_REGAINED (R40). -/
  | referenceRegained
  /-- LAPSE_DEADLINE of a node's lease (R32). -/
  | lapseDeadline (n : Node)
  /-- EXPIRY_DEADLINE of a node's lease (R33). -/
  | expiryDeadline (n : Node)
  /-- GRACE_END (R42). -/
  | graceEnd
  /-- GATHER_DEADLINE of a node's batch (R88). -/
  | gatherDeadline (n : Node)
  /-- DRAIN_DEADLINE of a DRAINING slot (R92). -/
  | drainDeadline (slot : Slot)
  /-- HANDING_DRAIN_DEADLINE of a HANDING slot (R19). -/
  | handingDrainDeadline (slot : Slot)
  /-- BRINGUP_DEADLINE (R117). -/
  | bringupDeadline (bay : Slot)
  /-- RESET_DEADLINE (R122). -/
  | resetDeadline (bay : Slot)
  /-- PROBE_DEADLINE (R134). -/
  | probeDeadline
  /-- STORE_WRITE_DONE (R160). -/
  | storeWriteDone
  /-- STORE_WRITE_FAILED (R161). -/
  | storeWriteFailed
  /-- RESET_ASSERT (R163). -/
  | resetAssert
  /-- RESET_RELEASE (R163). -/
  | resetRelease
  /-- POWER_ON (R163). -/
  | powerOn
  /-- POWER_FAIL (R160). -/
  | powerFail
  deriving DecidableEq, Repr

end Sys2Proof
end

