-- ==== Sys2Proof/WellFormed.lean ====
section
/-! DEFINITION. Which commands the world can send: a bound on each operand the types leave open. -/

namespace Sys2Proof

/-- A DATA payload is 1 to 1,023 bytes (R61, 12.2). -/
def payloadOk (p : List Byte) : Bool := decide (1 ≤ p.length) && decide (p.length ≤ 1023)

/-- A port receives at most 1,032 bytes of one frame (R164). -/
def receivedOk (f : List Byte) : Bool := decide (f.length ≤ 1032)

/-- The operands are ones the world can send. Every other operand's whole range is admitted. -/
def Instr.wellFormed : Instr → Bool
  | .data _ _ _ p => payloadOk p
  | .driveDataFrame _ _ p => payloadOk p
  | .crcCheckFailed _ f => receivedOk f
  | .protocolFault _ f => receivedOk f
  | .haltedFrameDiscard _ f => receivedOk f
  | .badRequest _ f => receivedOk f
  | _ => true

end Sys2Proof
end

