-- ==== Sys2Proof/Decode.lean ====
section
/-! DEFINITION. The command a table word spells. spec/opcode_table.json gives none of its 67 rows any
bits ("fields" is empty in each), so no word spells a command. Frames are read in Machine/Frames.lean. -/

namespace Sys2Proof

/-- No row of spec/opcode_table.json has bits, so every word is refused. -/
def decodeTableWord (_nbits _w : Nat) : Option Instr := none

end Sys2Proof
end

