-- ==== Sys2Proof/Config.lean ====
section
/-! DEFINITION. What the spec leaves free, as constants with no body. -/

namespace Sys2Proof

/-- The free value of R160: whether the store record being written when power failed or the reset
input was asserted holds its new content afterwards (`true`) or still its old content (`false`).
The argument is `State.freeCount` at that event. Log 7. -/
opaque Config.interruptedWriteIsNew : Nat → Bool

/-- What the reference input does (R38): whether an interval of more than 10 µs between its edges ends or
is open within a tick of the fallback oscillator. The input is the world's and no row of the opcode table
names its edges. The argument is `State.freeCount` at that tick. Log 16. -/
opaque Config.referenceGap : Nat → Bool

end Sys2Proof
end

