-- ==== Sys2Proof/Machine/State.lean ====
section
/-! DEFINITION. The state of the controller: plain data, everything the spec gives it, and the queue
of waiting commands. -/

namespace Sys2Proof.Machine

/-- No command of this block stops it: the spec answers every refusal with a reply or a CPL, and what
it calls faults are states (a HALTED port, a FAILED bay, a FAULTED store). Raised by nothing; safe. -/
inductive Fault where
  deriving DecidableEq, Repr

/-- Why a command has no meaning. -/
inductive Refusal where
  /-- Raised by an arm of `exec` whose command has no meaning yet; no arm does so. Safe. -/
  | notModelled (mnemonic : String)
  deriving DecidableEq, Repr

/-! ### Slot Table (R1) -/

inductive Phase where
  | unowned | owned | claimed | draining | handing | committing
  deriving DecidableEq, Repr

inductive CommitPath where
  | claim | release | handover | takeover
  deriving DecidableEq, Repr

inductive Policy where
  | auto | manual
  deriving DecidableEq, Repr

/-- The owner of a slot, or the target of a change: a node, or `none` for NONE. -/
abbrev Owner := Option Node

structure SlotRec where
  phase : Phase
  owner : Owner
  generation : Gen
  /-- The owner-to-be, in HANDING and COMMITTING. -/
  target : Option Owner
  /-- In COMMITTING. -/
  path : Option CommitPath
  /-- The claimant, in CLAIMED and DRAINING. -/
  batch : Option Node
  policy : Policy
  quota : Pair Nat
  autoPending : Option Node
  drainDeadline : Option Tick
  storeLost : Bool
  /-- The owner before the commit in progress, in COMMITTING; SLOT_RELEASED carries it (R144). Log 21. -/
  former : Option Owner
  deriving DecidableEq, Repr

/-! ### Lease Monitor (R24) and Timebase (R37 to R42) -/

inductive LeaseState where
  | absent | live | lapsing | expired
  deriving DecidableEq, Repr

inductive AbsentCause where
  | neverSeen | left
  deriving DecidableEq, Repr

inductive Source where
  | reference | fallback
  deriving DecidableEq, Repr

/-- What a heartbeat granted; kept until the next heartbeat replaces it (R24). -/
structure Grant where
  grade : Fin 10
  miss : Nat
  span : Nat
  lastHeartbeat : Tick
  deriving DecidableEq, Repr

structure Lease where
  state : LeaseState
  absentCause : Option AbsentCause
  grant : Option Grant
  fastExpiry : Bool
  lapse : Option Tick
  expiry : Option Tick
  basis : Option Source
  lost : SlotMask
  /-- A LEAVE was taken in EXPIRED, so that the node stays gone (R36 item 2) for R99. Log 33. -/
  leftGone : Bool
  deriving DecidableEq, Repr

structure Timebase where
  tick : Tick
  source : Source
  /-- Consecutive ticks of the fallback oscillator since the measurement of R38 started afresh or was
  restarted, at most 10,000. Log 16. -/
  measured : Nat
  /-- The reference has qualified since start-up (R38), so that a later one is a regain (R40). -/
  qualified : Bool
  /-- The start-up grace is running (R41). -/
  grace : Bool
  deriving DecidableEq, Repr

/-! ### Forwarding Engine (R43 to R46) -/

inductive Kind where
  | read | write | flush | verify
  deriving DecidableEq, Repr

/-- An admitted command (R44). -/
structure Command where
  node : Node
  tag : Byte
  kind : Kind
  lba : Lba
  count : BitVec 16
  deriving DecidableEq, Repr

/-- The role of a drive tag that is not FREE (R45). -/
inductive Role where
  | active (c : Command) (dispatched : Tick)
  | orphaned (c : Command) (dispatched : Tick)
  | probe (expected : Bool)
  deriving DecidableEq, Repr

structure TagEntry where
  tag : DriveTag
  role : Role
  deriving DecidableEq, Repr

structure Engine where
  waiting : List Command
  /-- The entries that are not FREE, in dispatch order, oldest first (R45). Log 20. -/
  tags : List TagEntry
  probeRequest : Bool
  spurious : Count16
  droppedToDrive : Count16
  droppedFromDrive : Count16
  deriving DecidableEq, Repr

/-! ### Window Table (R68) -/

inductive WindowKind where
  | shareRead | shareRw | trip
  deriving DecidableEq, Repr

inductive ClearCause where
  | request | commit
  deriving DecidableEq, Repr

/-- What an ACTIVE entry holds beside its hit count. -/
structure ActiveWindow where
  slot : Slot
  first : Lba
  last : Lba
  kind : WindowKind
  setBy : Node
  setTick : Tick
  deriving DecidableEq, Repr

structure LastClear where
  cause : ClearCause
  slot : Slot
  kind : WindowKind
  first : Lba
  last : Lba
  hits : Count16
  deriving DecidableEq, Repr

structure Window where
  /-- ACTIVE with these fields, or `none` for UNUSED. -/
  active : Option ActiveWindow
  hits : Count16
  lastClear : Option LastClear
  deriving DecidableEq, Repr

/-! ### Takeover Unit (R78 to R80) -/

inductive BatchState where
  | noBatch | gathering | running | ended
  deriving DecidableEq, Repr

inductive Origin where
  | request | auto
  deriving DecidableEq, Repr

inductive BatchOutcome where
  | allTaken | partialTaken | noneTaken | cancelled | claimantLost
  deriving DecidableEq, Repr

inductive MemberStatus where
  | gathered | draining | committing | taken | takenFaulted | skippedHeld
  | droppedOwnerReturned | droppedCancelled
  deriving DecidableEq, Repr

/-- The phase of a slot before its join: OWNED or UNOWNED (R79). -/
inductive PriorPhase where
  | owned | unowned
  deriving DecidableEq, Repr

structure Member where
  slot : Slot
  prior : PriorPhase
  oldOwner : Owner
  status : MemberStatus
  orphans : Option Nat
  newGeneration : Option Gen
  stored : Option Bool
  deriving DecidableEq, Repr

structure Batch where
  state : BatchState
  number : Byte
  origin : Option Origin
  members : List Member
  gatherDeadline : Option Tick
  startTick : Option Tick
  endTick : Option Tick
  outcome : Option BatchOutcome
  deriving DecidableEq, Repr

/-- The five timing settings in milliseconds (R80). -/
structure Timing where
  gatherWindow : Nat
  drainBase : Nat
  drainPerCommand : Nat
  drainCap : Nat
  resetLimit : Nat
  deriving DecidableEq, Repr

/-! ### Report Store (R101 to R103) -/

inductive ResetCause where
  | drainLimit | resetDrive | linkLoss
  deriving DecidableEq, Repr

inductive Fate where
  | pending | neverSent | doneGood
  | doneError (code : BitVec 16)
  | abortedByReset | lostRemoved
  deriving DecidableEq, Repr

structure ReportEntry where
  tag : Byte
  kind : Kind
  lba : Lba
  count : BitVec 16
  /-- The dispatch tick of an AT_DRIVE entry; `none` marks a WAITING entry (R103). -/
  dispatched : Option Tick
  fate : Fate
  deriving DecidableEq, Repr

/-- What closing a report writes (R108); a report that holds it is FINAL. -/
structure Closing where
  generationAfter : Gen
  stored : Bool
  commitTick : Tick
  deriving DecidableEq, Repr

structure Report where
  oldOwner : Node
  newOwner : Node
  generationBefore : Gen
  fenceTick : Tick
  /-- FINAL with these fields, or `none` for IN_PROGRESS. -/
  closing : Option Closing
  /-- Reset used is set with this cause and tick, or `none` for clear (R107). -/
  resetUsed : Option (ResetCause × Tick)
  replacedUnread : Bool
  readToEnd : Bool
  entries : List ReportEntry
  deriving DecidableEq, Repr

/-! ### Bay Controller (R112) -/

inductive BayState where
  | empty | bringup | ready | suspect | resetting | held | failed
  deriving DecidableEq, Repr

/-- What a Bay Controller waits for on its drive link (R117, R121). -/
inductive Awaits where
  | nothing | readySignal | identity
  deriving DecidableEq, Repr

structure Bay where
  state : BayState
  recorded : Option Fingerprint
  presented : Option Fingerprint
  capacity : Option Lba
  /-- The debounced presence level. -/
  present : Bool
  /-- The presence input pin. -/
  input : Bool
  /-- When the change at the input has held for 2,000 ticks (R114). -/
  debounce : Option Tick
  bringupDeadline : Option Tick
  resetDeadline : Option Tick
  resetCause : Option ResetCause
  resetsStarted : Count16
  resetsFailed : Count16
  linkLosses : Count16
  bringupsFailed : Count16
  identifyRetries : Count16
  awaits : Awaits
  /-- The link reset signal is asserted and held (R113). -/
  linkHeld : Bool
  deriving DecidableEq, Repr

/-- What the controller sends on a drive link (R113). -/
inductive DriveFrame where
  | command (tag : DriveTag) (kind : Kind) (lba : Lba) (count : BitVec 16)
  | data (tag : DriveTag) (payload : List Byte)
  | identifyTagged (tag : DriveTag)
  | identifyUntagged
  /-- The link reset signal of R120 step 5, asserted and released again. -/
  | linkReset
  deriving DecidableEq, Repr

/-! ### Audit Unit (R129, R130) -/

inductive AuditMode where
  | once | onceFixed | cyclic | stepped
  deriving DecidableEq, Repr

inductive SweepState where
  | idle | probing | pausedStep | pausedFull
  deriving DecidableEq, Repr

inductive EndReason where
  | done | budget | stopped | restarted | leaseLost | portDown | noticesOff
  deriving DecidableEq, Repr

inductive AuditOutcome where
  | absent | notProbed | matched | swapped | newDrive | probeFailed | noResponse
  deriving DecidableEq, Repr

structure AuditResult where
  slot : Slot
  outcome : AuditOutcome
  owner : Owner
  generation : Gen
  phase : Phase
  bayState : BayState
  fingerprint : Option Fingerprint
  driveStatus : Option (BitVec 16)
  tick : Tick
  deriving DecidableEq, Repr

/-- The stage of an outstanding probe, with its tag and deadline once dispatched (R129, R134). -/
inductive Probe where
  | requested
  | dispatched (tag : DriveTag) (deadline : Tick)
  deriving DecidableEq, Repr

/-- What a start writes and the sweep keeps after it ends (R129). -/
structure SweepRun where
  requester : Node
  first : Slot
  last : Slot
  mode : AuditMode
  budget : Byte
  issued : Count16
  pass : Count16
  startTick : Tick
  deriving DecidableEq, Repr

structure Sweep where
  state : SweepState
  run : Option SweepRun
  current : Option Slot
  probe : Option Probe
  ended : Option (EndReason × Tick)
  holder : Option AuditResult
  table : Vector (Option AuditResult) 8
  deriving DecidableEq, Repr

/-! ### Notice Queue (R141 to R145) -/

inductive FaultedCause where
  | bringupLimit | resetLimit
  deriving DecidableEq, Repr

inductive ExpiryCause where
  | neverSeen | left | expired
  deriving DecidableEq, Repr

/-- The kind of a notice with the values its body holds (R144). -/
inductive NoticeBody where
  | partnerLapsing (expiry : Tick) (grade : Fin 10) (miss : Nat)
  | partnerExpired (cause : ExpiryCause) (lastHeartbeat : Option Tick)
  | partnerReturned (previous : LeaseState) (cause : Option AbsentCause) (grade : Fin 10) (miss : Nat)
      (expiry : Tick)
  | slotTaken (generation : Gen) (stored : Bool)
  | slotLost (newOwner : Owner) (generation : Gen) (entries : Nat)
  | slotHanded (newOwner : Owner) (generation : Gen)
  | slotReleased (formerOwner : Owner) (generation : Gen)
  | batchEnded (number : Byte) (origin : Option Origin) (outcome : BatchOutcome)
      (taken takenFaulted skippedHeld droppedOwnerReturned droppedCancelled : Nat)
  | drainReset (orphans : Nat) (deadline : Tick)
  | slotFaulted (cause : FaultedCause)
  | driveInserted
  | driveRemoved (before : BayState)
  | driveSuspect (presented : Fingerprint)
  | tripHit (window : Fin 4) (tag : Byte) (count : BitVec 16) (lbaLow : BitVec 32)
  | auditResult (outcome : AuditOutcome) (owner : Owner) (generation : Gen) (phase : Phase)
      (bayState : BayState)
  | auditEnded (reason : EndReason) (issued pass : Count16)
  | timebaseLost (leases : Nat)
  | timebaseRegained
  | storeFault (waiting : Nat)
  | graceEnded (leaseA leaseB : LeaseState)
  deriving DecidableEq, Repr

structure Notice where
  slot : Option Slot
  tick : Tick
  body : NoticeBody
  deriving DecidableEq, Repr

structure NoticeQueue where
  queue : List Notice
  on : Bool
  /-- Bit c masks the kind with code c. Log 8. -/
  mask : BitVec 32
  /-- Bit c marks the kind with code c. -/
  summary : BitVec 32
  dropped : Count16
  /-- The attention output pin (R145). -/
  attention : Bool
  deriving DecidableEq, Repr

/-! ### Node Port (R150) -/

inductive PortState where
  | down | up | halted
  deriving DecidableEq, Repr

inductive FaultKind where
  | unknownClass | wrongDirection | badLength | badSlot
  deriving DecidableEq, Repr

structure LastFault where
  kind : FaultKind
  classByte : Byte
  tick : Tick
  deriving DecidableEq, Repr

inductive CplStatus where
  | good | driveError | notOwner | staleGeneration | noLease | fenced | takeoverPending | slotHeld
  | slotVacant | checkDrive | trapped | quotaFull | queueFull | tagInUse | badCommand | abortedReset
  | driveRemoved | slotFaulted | slotBusy
  deriving DecidableEq, Repr

inductive Result where
  | done | accepted | badRequest | notOwner | ownerLive | ownerGrace | contested | busy | wrongState
  | noLease | ignoredRunning | noticesOff | noReport | partnerNotLive | refused | alreadyOwner | joined
  deriving DecidableEq, Repr

/-- A frame the controller sends to a node (10, 12.2). -/
inductive NodeFrame where
  | cpl (slot : Slot) (tag : Byte) (status : CplStatus) (generation : Gen) (detail : BitVec 16)
  | data (slot : Slot) (tag : Byte) (payload : List Byte)
  | rsp (id : BitVec 16) (code : Byte) (result : Result) (reply : List Byte)
  deriving DecidableEq, Repr

/-- A request taken whose RSP has not been sent: a CLAIM_FREE of the slot (R155). -/
structure AwaitingReply where
  id : BitVec 16
  slot : Slot
  deriving DecidableEq, Repr

structure Port where
  state : PortState
  lastFault : Option LastFault
  checkErrors : Count16
  droppedData : Count16
  discardedCpl : Count16
  awaiting : List AwaitingReply
  /-- Frames produced but not yet sent on the link, oldest first (R154). Log 6. -/
  unsent : List NodeFrame
  deriving DecidableEq, Repr

/-! ### Ownership Store (R158 to R162) -/

structure StoreRec where
  owner : Owner
  generation : Gen
  fingerprint : Option Fingerprint
  /-- The record fits its check value (R158). -/
  intact : Bool
  deriving DecidableEq, Repr

structure Update where
  slot : Slot
  owner : Owner
  generation : Gen
  fingerprint : Option Fingerprint
  /-- A commit of the slot waits for this update's completion (R159). -/
  commitWaits : Bool
  deriving DecidableEq, Repr

inductive StoreMode where
  | ready
  | writing (update : Update) (attempt : Nat) (started : Tick)
  | faulted
  deriving DecidableEq, Repr

structure Store where
  records : Vector StoreRec 8
  mode : StoreMode
  queue : List Update
  lostSet : SlotMask
  deriving DecidableEq, Repr

/-! ### The whole -/

structure Power where
  powered : Bool
  resetAsserted : Bool
  deriving DecidableEq, Repr

structure State where
  power : Power
  slots : Vector SlotRec 8
  leases : Pair Lease
  time : Timebase
  engines : Vector Engine 8
  windows : Vector Window 4
  batches : Pair Batch
  timing : Timing
  reports : Vector (Option Report) 8
  bays : Vector Bay 8
  driveOut : Vector (List DriveFrame) 8
  sweep : Sweep
  notices : Pair NoticeQueue
  ports : Pair Port
  store : Store
  /-- The model's own: counts the uses of the free values of logs 7 and 16. -/
  freeCount : Nat
  /-- The model's own: the commands that wait, first in first out. -/
  pending : List Instr
  deriving DecidableEq, Repr

/-! ### Start-up values of the blocks that need nothing restored -/

/-- R24. -/
def Lease.initial : Lease :=
  { state := .absent, absentCause := some .neverSeen, grant := none, fastExpiry := false,
    lapse := none, expiry := none, basis := none, lost := 0, leftGone := false }

/-- R37, R38, R41. -/
def Timebase.initial : Timebase :=
  { tick := 0, source := .fallback, measured := 0, qualified := false, grace := true }

/-- R43. -/
def Engine.initial : Engine :=
  { waiting := [], tags := [], probeRequest := false, spurious := 0, droppedToDrive := 0,
    droppedFromDrive := 0 }

/-- R68. -/
def Window.initial : Window := { active := none, hits := 0, lastClear := none }

/-- R78. -/
def Batch.initial : Batch :=
  { state := .noBatch, number := 0, origin := none, members := [], gatherDeadline := none,
    startTick := none, endTick := none, outcome := none }

/-- R80. -/
def Timing.initial : Timing :=
  { gatherWindow := 50, drainBase := 2000, drainPerCommand := 50, drainCap := 30000, resetLimit := 5000 }

/-- R129, R130. -/
def Sweep.initial : Sweep :=
  { state := .idle, run := none, current := none, probe := none, ended := none, holder := none,
    table := Vector.replicate 8 none }

/-- R142, R145. -/
def NoticeQueue.initial : NoticeQueue :=
  { queue := [], on := false, mask := 0, summary := 0, dropped := 0, attention := false }

/-- R150. -/
def Port.initial : Port :=
  { state := .down, lastFault := none, checkErrors := 0, droppedData := 0, discardedCpl := 0,
    awaiting := [], unsent := [] }

/-- The content of a store never written. DESIGN CHOICE, unsafe: the spec gives none. Log 1. -/
def StoreRec.initial : StoreRec :=
  { owner := none, generation := 0, fingerprint := none, intact := true }

/-- R2, for a record restored with owner NONE and generation 0. -/
def SlotRec.initial : SlotRec :=
  { phase := .unowned, owner := none, generation := 0, target := none, path := none, batch := none,
    policy := .auto, quota := ⟨16, 16⟩, autoPending := none, drainDeadline := none, storeLost := false,
    former := none }

/-- R112, for a bay whose presence input shows no drive and whose record holds no fingerprint.
The input's level is a DESIGN CHOICE, unsafe. Log 2. -/
def Bay.initial : Bay :=
  { state := .empty, recorded := none, presented := none, capacity := none, present := false,
    input := false, debounce := none, bringupDeadline := none, resetDeadline := none,
    resetCause := none, resetsStarted := 0, resetsFailed := 0, linkLosses := 0, bringupsFailed := 0,
    identifyRetries := 0, awaits := .nothing, linkHeld := false }

/-- The machine right after start-up (R163), with a store never written (log 1), no drive seated
(log 2), power on and the reset input released (log 3). -/
def State.reset : State :=
  { power := { powered := true, resetAsserted := false }
    slots := Vector.replicate 8 SlotRec.initial
    leases := ⟨Lease.initial, Lease.initial⟩
    time := Timebase.initial
    engines := Vector.replicate 8 Engine.initial
    windows := Vector.replicate 4 Window.initial
    batches := ⟨Batch.initial, Batch.initial⟩
    timing := Timing.initial
    reports := Vector.replicate 8 none
    bays := Vector.replicate 8 Bay.initial
    driveOut := Vector.replicate 8 []
    sweep := Sweep.initial
    notices := ⟨NoticeQueue.initial, NoticeQueue.initial⟩
    ports := ⟨Port.initial, Port.initial⟩
    store := { records := Vector.replicate 8 StoreRec.initial, mode := .ready, queue := [], lostSet := 0 }
    freeCount := 0
    pending := [] }

end Sys2Proof.Machine
end

