-- ==== Sys2Proof/Machine/Flags.lean ====
section
/-! DEFINITION. The controller's arithmetic: counters, generations, the lease and drain computations
with the flags they set, and the sets of slots. No state is read here. -/

namespace Sys2Proof.Machine

/-- One more on a 16-bit saturating counter (00, Numbers and byte order). -/
def satInc (x : Count16) : Count16 := if x = 0xFFFF then x else x + 1

/-- `k` more on a 16-bit saturating counter. -/
def satAdd (x : Count16) (k : Nat) : Count16 := BitVec.ofNat 16 (min 65535 (x.toNat + k))

/-- The successor of a generation: 65,535 is followed by 1 (00, Generations). -/
def succGen (g : Gen) : Gen := if g = 0xFFFF then 1 else g + 1

/-- "Now + x", modulo 2^32 (00, Time). -/
def later (now : Tick) (x : Nat) : Tick := now + BitVec.ofNat 32 x

/-- The eight slots in ascending order. -/
def allSlots : List Slot := [0, 1, 2, 3, 4, 5, 6, 7]

/-- The table of a value for each slot. -/
def tabulate {α : Type} (f : Slot → α) : Vector α 8 := #v[f 0, f 1, f 2, f 3, f 4, f 5, f 6, f 7]

/-- The slots a mask names, in ascending order (00, Bays and slots). -/
def slotsIn (m : SlotMask) : List Slot := allSlots.filter (fun i => m.getLsbD i.val)

/-- The mask that names one slot. -/
def slotBit (i : Slot) : SlotMask := (1 : SlotMask) <<< i.val

/-- The mask that names the slots of a list. -/
def maskOf (l : List Slot) : SlotMask := l.foldr (fun i m => slotBit i ||| m) 0

/-! ### Heartbeat arithmetic (R27 to R30) -/

/-- The grade table of R27, in ms. -/
def grades : List Nat := [20, 50, 100, 200, 500, 1000, 2000, 5000, 10000, 20000]

/-- The grade in ms at a grade index. -/
def gradeMs (i : Fin 10) : Nat := grades.getD i.val 0

/-- R27: the index of the largest grade not above the period, and of 20 ms for a period below it. -/
def gradeIndex (period : Nat) : Fin 10 :=
  Fin.ofNat 10 ((grades.filter (fun g => decide (g ≤ period))).length - 1)

/-- The flag CLAMPED of R27. -/
def gradeClamped (period : Nat) : Bool := decide (period < 20)

/-- The flag ROUNDED of R27. -/
def gradeRounded (period : Nat) : Bool := decide (period ≠ gradeMs (gradeIndex period))

/-- R28: the requested allowance clamped to 1 to 8. -/
def missOf (requested : Nat) : Nat := min 8 (max 1 requested)

/-- The flag MISS_CLAMPED of R28. -/
def missClamped (requested : Nat) : Bool := decide (requested ≠ missOf requested)

/-- The tolerance T of R28, in ppm. -/
def tolerance : Source → Nat
  | .reference => 200
  | .fallback => 20000

/-- Division rounded up. -/
def ceilDiv (x y : Nat) : Nat := (x + (y - 1)) / y

/-- The span S of R29, in ticks. -/
def spanTicks (g m t : Nat) : Nat := ceilDiv (g * 10 * m * (1000000 + t)) 1000000 + 20

/-- R39 item 2: a deadline with its remaining ticks stretched to the fallback tolerance. -/
def stretched (now d : Tick) : Tick := later now (ceilDiv ((d - now).toNat * 1020000) 1000200)

/-! ### Settings (R6, R17, R80, R90) -/

/-- A value outside its range is set to the nearer end. -/
def clampTo (lo hi x : Nat) : Nat := min hi (max lo x)

/-- R6: a quota above 32 is set to 32. -/
def quotaOf (q : Byte) : Nat := min 32 q.toNat

/-- The clamp flag of a quota (R6). -/
def quotaClamped (q : Byte) : Bool := decide (32 < q.toNat)

/-- The drain limit D of R17 and R90, in ticks. -/
def drainLimit (t : Timing) (n : Nat) : Nat :=
  min ((t.drainBase + t.drainPerCommand * n) * 10) (t.drainCap * 10)

/-- SET_TIMING's five values, clamped to the ranges of R80. -/
def timingOf (w b p c l : BitVec 32) : Timing :=
  { gatherWindow := clampTo 0 1000 w.toNat
    drainBase := clampTo 100 60000 b.toNat
    drainPerCommand := clampTo 0 1000 p.toNat
    drainCap := clampTo 1000 120000 c.toNat
    resetLimit := clampTo 1000 30000 l.toNat }

end Sys2Proof.Machine
end

