-- ==== Sys2Proof/Machine/Operands.lean ====
section
/-! DEFINITION. The values of request parameters (R165) and the blocks a command covers (R51, R73, R74). -/

namespace Sys2Proof.Machine

/-- A byte that is 0 or 1: fast-expiry, enable (R165). -/
def switchOf (b : Byte) : Option Bool :=
  if b = 0 then some false else if b = 1 then some true else none

/-- R165: 0 AUTO, 1 MANUAL. -/
def policyOf (b : Byte) : Option Policy :=
  if b = 0 then some .auto else if b = 1 then some .manual else none

/-- R165: 0 A, 1 B. -/
def nodeOf (b : Byte) : Option Node := if b = 0 then some .a else if b = 1 then some .b else none

/-- R165: 1 SHARE_READ, 2 SHARE_RW, 3 TRIP. -/
def windowKindOf (b : Byte) : Option WindowKind :=
  if b = 1 then some .shareRead else if b = 2 then some .shareRw else if b = 3 then some .trip else none

/-- A window index, 0 to 3 (R69, R71). -/
def windowIndexOf (b : Byte) : Option (Fin 4) :=
  if h : b.toNat < 4 then some ⟨b.toNat, h⟩ else none

/-- R165: 1 ONCE, 2 ONCE_FIXED, 3 CYCLIC, 4 STEPPED. -/
def auditModeOf (b : Byte) : Option AuditMode :=
  if b = 1 then some .once else if b = 2 then some .onceFixed
  else if b = 3 then some .cyclic else if b = 4 then some .stepped else none

/-- The kind byte of a CMD: 1 READ, 2 WRITE, 3 FLUSH, 4 VERIFY; any other is no kind (R51, R165). -/
def kindOf (b : Byte) : Option Kind :=
  if b = 1 then some .read else if b = 2 then some .write
  else if b = 3 then some .flush else if b = 4 then some .verify else none

/-- A slot byte 0 to 7; a larger one is refused (R155). -/
def slotOf (b : Byte) : Option Slot := if h : b.toNat < 8 then some ⟨b.toNat, h⟩ else none

/-- The assigned bits of a notice mask, 1 to 19; the others are ignored and read as 0 (12.2, R165). -/
def assignedKinds : BitVec 32 := 0x000FFFFE

/-- Every block the command covers lies in the range (R73); a count of 0 covers none. -/
def contains (first last lba : Lba) (count : BitVec 16) : Bool :=
  decide (0 < count.toNat) && decide (first.toNat ≤ lba.toNat) &&
    decide (lba.toNat + count.toNat ≤ last.toNat + 1)

/-- At least one block the command covers lies in the range (R74); a count of 0 covers none. -/
def overlaps (first last lba : Lba) (count : BitVec 16) : Bool :=
  decide (0 < count.toNat) && decide (lba.toNat ≤ last.toNat) &&
    decide (first.toNat < lba.toNat + count.toNat)

/-- A SHARE window of this kind and range admits the command (R73). -/
def shareAdmits (w : ActiveWindow) (kind : Option Kind) (lba : Lba) (count : BitVec 16) : Bool :=
  match kind, w.kind with
  | _, .trip => false
  | none, _ => false
  | some .flush, .shareRw => true
  | some .flush, .shareRead => false
  | some .write, .shareRead => false
  | some .write, .shareRw => contains w.first w.last lba count
  | some .read, _ => contains w.first w.last lba count
  | some .verify, _ => contains w.first w.last lba count

/-- The sixth admission check (R51): kind, count and range are valid for the capacity. -/
def commandValid (capacity : Nat) (kind : Kind) (lba : Lba) (count : BitVec 16) : Bool :=
  match kind with
  | .flush => decide (count = 0)
  | _ => decide (count ≠ 0) && decide (lba.toNat + count.toNat ≤ capacity)

end Sys2Proof.Machine
end

