-- ==== Sys2Proof/Machine/Wire.lean ====
section
/-! DEFINITION. Bytes on the node links (12): items at their natural width, the code tables of 12.4,
notice and report records, the CRC of R164 and whole frames. Log 9 lists the widths the spec leaves
to be inferred. -/

namespace Sys2Proof.Machine

/-- The low `k` bytes of `x`, big-endian (00, Numbers and byte order). -/
def beBytes : Nat → Nat → List Byte
  | 0, _ => []
  | k + 1, x => BitVec.ofNat 8 (x >>> (8 * k)) :: beBytes k x

def u8 (x : Nat) : List Byte := beBytes 1 x
def u16 (x : Nat) : List Byte := beBytes 2 x
def u32 (x : Nat) : List Byte := beBytes 4 x
def u48 (x : Nat) : List Byte := beBytes 6 x
def u64 (x : Nat) : List Byte := beBytes 8 x

def flag (b : Bool) : List Byte := u8 (if b then 1 else 0)
def tickItem (t : Tick) : List Byte := u32 t.toNat
def genItem (g : Gen) : List Byte := u16 g.toNat
def countItem (c : Count16) : List Byte := u16 c.toNat
def lbaItem (l : Lba) : List Byte := u48 l.toNat
def slotItem (i : Slot) : List Byte := u8 i.val

/-- An item present in some cases only: a presence byte, then the value, or 0 at its width (12.2). -/
def optItem {α : Type} (width : Nat) (f : α → List Byte) : Option α → List Byte
  | some x => u8 1 ++ f x
  | none => u8 0 ++ List.replicate width 0

/-- A list: a count byte, then its elements (12.2). -/
def listItem {α : Type} (f : α → List Byte) (xs : List α) : List Byte :=
  u8 xs.length ++ xs.flatMap f

/-! ### Codes (12.4) -/

def nodeCode : Node → Nat
  | .a => 0
  | .b => 1

def ownerCode : Owner → Nat
  | some n => nodeCode n
  | none => 2

def phaseCode : Phase → Nat
  | .unowned => 0
  | .owned => 1
  | .claimed => 2
  | .draining => 3
  | .handing => 4
  | .committing => 5

def leaseCode : LeaseState → Nat
  | .absent => 0
  | .live => 1
  | .lapsing => 2
  | .expired => 3

def absentCode : AbsentCause → Nat
  | .neverSeen => 0
  | .left => 1

def expiryCode : ExpiryCause → Nat
  | .neverSeen => 0
  | .left => 1
  | .expired => 2

def bayCode : BayState → Nat
  | .empty => 0
  | .bringup => 1
  | .ready => 2
  | .suspect => 3
  | .resetting => 4
  | .held => 5
  | .failed => 6

def fateCode : Fate → Nat
  | .pending => 0
  | .neverSent => 1
  | .doneGood => 2
  | .doneError _ => 3
  | .abortedByReset => 4
  | .lostRemoved => 5

def auditOutcomeCode : AuditOutcome → Nat
  | .absent => 0
  | .notProbed => 1
  | .matched => 2
  | .swapped => 3
  | .newDrive => 4
  | .probeFailed => 5
  | .noResponse => 6

def batchOutcomeCode : BatchOutcome → Nat
  | .allTaken => 0
  | .partialTaken => 1
  | .noneTaken => 2
  | .cancelled => 3
  | .claimantLost => 4

def endReasonCode : EndReason → Nat
  | .done => 0
  | .budget => 1
  | .stopped => 2
  | .restarted => 3
  | .leaseLost => 4
  | .portDown => 5
  | .noticesOff => 6

def faultKindCode : FaultKind → Nat
  | .unknownClass => 1
  | .wrongDirection => 2
  | .badLength => 3
  | .badSlot => 4

def batchStateCode : BatchState → Nat
  | .noBatch => 0
  | .gathering => 1
  | .running => 2
  | .ended => 3

def originCode : Origin → Nat
  | .request => 0
  | .auto => 1

def memberStatusCode : MemberStatus → Nat
  | .gathered => 0
  | .draining => 1
  | .committing => 2
  | .taken => 3
  | .takenFaulted => 4
  | .skippedHeld => 5
  | .droppedOwnerReturned => 6
  | .droppedCancelled => 7

def pathCode : CommitPath → Nat
  | .claim => 0
  | .release => 1
  | .handover => 2
  | .takeover => 3

def policyCode : Policy → Nat
  | .auto => 0
  | .manual => 1

def kindCode : Kind → Nat
  | .read => 1
  | .write => 2
  | .flush => 3
  | .verify => 4

def priorCode : PriorPhase → Nat
  | .unowned => 0
  | .owned => 1

def resetCauseCode : ResetCause → Nat
  | .drainLimit => 0
  | .resetDrive => 1
  | .linkLoss => 2

def faultedCauseCode : FaultedCause → Nat
  | .bringupLimit => 0
  | .resetLimit => 1

def sourceCode : Source → Nat
  | .reference => 0
  | .fallback => 1

def portCode : PortState → Nat
  | .down => 0
  | .up => 1
  | .halted => 2

def windowKindCode : WindowKind → Nat
  | .shareRead => 1
  | .shareRw => 2
  | .trip => 3

def clearCauseCode : ClearCause → Nat
  | .request => 0
  | .commit => 1

def sweepCode : SweepState → Nat
  | .idle => 0
  | .probing => 1
  | .pausedStep => 2
  | .pausedFull => 3

def auditModeCode : AuditMode → Nat
  | .once => 1
  | .onceFixed => 2
  | .cyclic => 3
  | .stepped => 4

def storeCode : StoreMode → Nat
  | .ready => 0
  | .writing _ _ _ => 1
  | .faulted => 2

def resultCode : Result → Nat
  | .done => 0
  | .accepted => 1
  | .badRequest => 2
  | .notOwner => 3
  | .ownerLive => 4
  | .ownerGrace => 5
  | .contested => 6
  | .busy => 7
  | .wrongState => 8
  | .noLease => 9
  | .ignoredRunning => 10
  | .noticesOff => 11
  | .noReport => 12
  | .partnerNotLive => 13
  | .refused => 14
  | .alreadyOwner => 15
  | .joined => 16

def cplCode : CplStatus → Nat
  | .good => 0
  | .driveError => 1
  | .notOwner => 2
  | .staleGeneration => 3
  | .noLease => 4
  | .fenced => 5
  | .takeoverPending => 6
  | .slotHeld => 7
  | .slotVacant => 8
  | .checkDrive => 9
  | .trapped => 10
  | .quotaFull => 11
  | .queueFull => 12
  | .tagInUse => 13
  | .badCommand => 14
  | .abortedReset => 15
  | .driveRemoved => 16
  | .slotFaulted => 17
  | .slotBusy => 18

/-- The code of a notice's kind (12.4, Notice kinds). -/
def NoticeBody.code : NoticeBody → Nat
  | .partnerLapsing _ _ _ => 0x01
  | .partnerExpired _ _ => 0x02
  | .partnerReturned _ _ _ _ _ => 0x03
  | .slotTaken _ _ => 0x04
  | .slotLost _ _ _ => 0x05
  | .slotHanded _ _ => 0x06
  | .slotReleased _ _ => 0x07
  | .batchEnded _ _ _ _ _ _ _ _ => 0x08
  | .drainReset _ _ => 0x09
  | .slotFaulted _ => 0x0A
  | .driveInserted => 0x0B
  | .driveRemoved _ => 0x0C
  | .driveSuspect _ => 0x0D
  | .tripHit _ _ _ _ => 0x0E
  | .auditResult _ _ _ _ _ => 0x0F
  | .auditEnded _ _ _ => 0x10
  | .timebaseLost _ => 0x11
  | .timebaseRegained => 0x11
  | .storeFault _ => 0x12
  | .graceEnded _ _ => 0x13

/-! ### Records (12.3) -/

/-- The items of a notice body in the order of R144; an item absent in some case is 0. -/
def NoticeBody.items : NoticeBody → List Byte
  | .partnerLapsing e g m => tickItem e ++ u8 g.val ++ u8 m
  | .partnerExpired c t => u8 (expiryCode c) ++ u32 ((t.map BitVec.toNat).getD 0)
  | .partnerReturned p c g m e =>
      u8 (leaseCode p) ++ u8 ((c.map absentCode).getD 0) ++ u8 g.val ++ u8 m ++ tickItem e
  | .slotTaken g st => genItem g ++ flag st
  | .slotLost o g k => u8 (ownerCode o) ++ genItem g ++ u8 k
  | .slotHanded o g => u8 (ownerCode o) ++ genItem g
  | .slotReleased o g => u8 (ownerCode o) ++ genItem g
  | .batchEnded k o out t tf sk dr dc =>
      u8 k.toNat ++ u8 ((o.map originCode).getD 0) ++ u8 (batchOutcomeCode out) ++ u8 t ++ u8 tf ++ u8 sk
        ++ u8 dr ++ u8 dc
  | .drainReset k d => u8 k ++ tickItem d
  | .slotFaulted c => u8 (faultedCauseCode c)
  | .driveInserted => []
  | .driveRemoved b => u8 (bayCode b)
  | .driveSuspect f => u64 f.toNat
  | .tripHit w t c l => u8 w.val ++ u8 t.toNat ++ u16 c.toNat ++ u32 l.toNat
  | .auditResult o ow g p b =>
      u8 (auditOutcomeCode o) ++ u8 (ownerCode ow) ++ genItem g ++ u8 (phaseCode p) ++ u8 (bayCode b)
  | .auditEnded r k p => u8 (endReasonCode r) ++ countItem k ++ countItem p
  | .timebaseLost k => u8 0 ++ u8 k
  | .timebaseRegained => u8 1 ++ u8 0
  | .storeFault k => u8 k
  | .graceEnded x y => u8 (leaseCode x) ++ u8 (leaseCode y)

/-- A record padded with 0 to its size. -/
def padTo (k : Nat) (xs : List Byte) : List Byte := xs ++ List.replicate (k - xs.length) 0

/-- The 14-byte notice record. -/
def noticeRecord (m : Notice) : List Byte :=
  u8 m.body.code ++ u8 ((m.slot.map Fin.val).getD 0xFF) ++ tickItem m.tick ++ padTo 8 m.body.items

/-- The drive code of an entry; 0 unless DONE_ERROR. -/
def Fate.driveCode : Fate → Nat
  | .doneError c => c.toNat
  | _ => 0

/-- The 17-byte report entry. -/
def reportEntryRecord (e : ReportEntry) : List Byte :=
  u8 ((if e.dispatched.isSome then 0 else 128) + fateCode e.fate) ++ u8 e.tag.toNat ++ u8 (kindCode e.kind)
    ++ u16 e.fate.driveCode ++ lbaItem e.lba ++ u16 e.count.toNat
    ++ u32 ((e.dispatched.map BitVec.toNat).getD 0)

/-! ### The frame (12.1, R164) -/

/-- One bit of the reflected CRC register. -/
def crcBit (r : BitVec 32) : BitVec 32 :=
  if r.getLsbD 0 then (r >>> 1) ^^^ 0x82F63B78 else r >>> 1

/-- One byte into the CRC register. -/
def crcByte (r : BitVec 32) (b : Byte) : BitVec 32 :=
  crcBit (crcBit (crcBit (crcBit (crcBit (crcBit (crcBit (crcBit (r ^^^ b.setWidth 32))))))))

/-- R164: polynomial 1EDC6F41h reflected, initial value and final exclusive-or FFFFFFFFh. -/
def crc32 (bytes : List Byte) : BitVec 32 := bytes.foldl crcByte 0xFFFFFFFF ^^^ 0xFFFFFFFF

/-- Header, body and CRC of a frame (12.1). -/
def frameBytes (cls slot : Nat) (body : List Byte) : List Byte :=
  let front := u8 cls ++ u8 slot ++ u16 body.length ++ body
  front ++ u32 (crc32 front).toNat

/-- A frame the controller sends, as bytes: a CPL and a DATA frame carry the bay, an RSP FFh (R164). -/
def NodeFrame.bytes : NodeFrame → List Byte
  | .cpl slot tag status g detail =>
      frameBytes 2 slot.val (u8 tag.toNat ++ u8 (cplCode status) ++ genItem g ++ u16 detail.toNat)
  | .data slot tag payload => frameBytes 5 slot.val (u8 tag.toNat ++ payload)
  | .rsp id code result reply =>
      frameBytes 4 0xFF (u16 id.toNat ++ u8 code.toNat ++ u8 (resultCode result) ++ reply)

end Sys2Proof.Machine
end

