-- ==== Sys2Proof/Machine/Frames.lean ====
section
/-! DEFINITION. Reading a frame that arrives on a node link: integrity (R151), structure (R152),
requests (R155), and the command a received frame is. -/

namespace Sys2Proof.Machine

/-- The number a run of big-endian bytes stands for. -/
def ofBytes (xs : List Byte) : Nat := xs.foldl (fun acc b => acc * 256 + b.toNat) 0

/-- The byte at an offset, 0 past the end. -/
def byteAt (f : List Byte) (k : Nat) : Byte := f.getD k 0

/-- The body length a header declares (12.1). -/
def declaredLength (f : List Byte) : Nat := ofBytes [byteAt f 2, byteAt f 3]

/-- The bytes between the header and the CRC. -/
def bodyOf (f : List Byte) : List Byte := (f.drop 4).take (f.length - 8)

/-- R151: the number of bytes fits the header, at most 1,032 of them (R164), and the CRC received is
the CRC computed over header and body. -/
def frameIntact (f : List Byte) : Bool :=
  decide (f.length = declaredLength f + 8) && decide (f.length ≤ 1032) &&
    decide (ofBytes (f.drop (f.length - 4)) = (crc32 (f.take (f.length - 4))).toNat)

/-- R152: the first structure check a frame fails, in the order of the table. -/
def structureFault (f : List Byte) : Option FaultKind :=
  let cls := (byteAt f 0).toNat
  let slot := (byteAt f 1).toNat
  let len := (bodyOf f).length
  if cls < 1 ∨ 5 < cls then some .unknownClass
  else if cls = 2 ∨ cls = 4 then some .wrongDirection
  else if (cls = 1 ∧ len ≠ 12) ∨ (cls = 3 ∧ len < 3) ∨ (cls = 5 ∧ len < 2) then some .badLength
  else if 7 < slot ∧ slot ≠ 0xFF then some .badSlot
  else if slot = 0xFF ∧ (cls = 1 ∨ cls = 5) then some .badSlot
  else none

/-- A request whose only parameter is a slot. -/
def withSlot (f : Slot → Instr) : List Byte → Option Instr
  | [b] => (slotOf b).map f
  | _ => none

/-- A request with no parameters. -/
def withNone (i : Instr) : List Byte → Option Instr
  | [] => some i
  | _ => none

/-- A request with one parameter byte that names no slot. -/
def withByte (f : Byte → Instr) : List Byte → Option Instr
  | [b] => some (f b)
  | _ => none

/-- R155: the request a code and its parameters are; `none` is BAD_REQUEST at the port, for a code
not of the catalog, a parameter length that does not fit, or a slot above 7. -/
def requestOf (n : Node) (id : BitVec 16) (code : Nat) (ps : List Byte) : Option Instr :=
  match code with
  | 0x01 => withNone (.identify n id) ps
  | 0x02 => withNone (.resume n id) ps
  | 0x03 => withNone (.linkStatus n id) ps
  | 0x10 =>
    match ps with
    | [p1, p0, m, f] => some (.heartbeat n id (BitVec.ofNat 16 (ofBytes [p1, p0])) m f)
    | _ => none
  | 0x11 => withNone (.leave n id) ps
  | 0x20 => withSlot (.slotStatus n id) ps
  | 0x21 => withSlot (.claimFree n id) ps
  | 0x22 => withByte (.release n id) ps
  | 0x23 => withByte (.handover n id) ps
  | 0x24 => withSlot (.hold n id) ps
  | 0x25 => withSlot (.unhold n id) ps
  | 0x26 => withSlot (.adopt n id) ps
  | 0x27 => withSlot (.clearFault n id) ps
  | 0x28 =>
    match ps with
    | [s, p, qa, qb] => (slotOf s).map (fun i => .setSlot n id i p qa qb)
    | _ => none
  | 0x29 => withSlot (.resetDrive n id) ps
  | 0x30 => withByte (.take n id) ps
  | 0x31 => withNone (.cancelTake n id) ps
  | 0x32 => withByte (.batchStatus n id) ps
  | 0x33 =>
    if ps.length = 20 then
      let v := fun k => BitVec.ofNat 32 (ofBytes ((ps.drop (4 * k)).take 4))
      some (.setTiming n id (v 0) (v 1) (v 2) (v 3) (v 4))
    else none
  | 0x34 =>
    match ps with
    | [s, k] => (slotOf s).map (fun i => .readReport n id i k)
    | _ => none
  | 0x35 => withSlot (.discardReport n id) ps
  | 0x40 =>
    if ps.length = 15 then
      (slotOf (byteAt ps 1)).map (fun i =>
        .setWindow n id (byteAt ps 0) i (BitVec.ofNat 48 (ofBytes ((ps.drop 2).take 6)))
          (BitVec.ofNat 48 (ofBytes ((ps.drop 8).take 6))) (byteAt ps 14))
    else none
  | 0x41 => withByte (.clearWindow n id) ps
  | 0x42 => withNone (.windowStatus n id) ps
  | 0x50 =>
    match ps with
    | [f, l, m, b] =>
      match slotOf f, slotOf l with
      | some fs, some ls => some (.startAudit n id fs ls m b)
      | _, _ => none
    | _ => none
  | 0x51 => withNone (.stepAudit n id) ps
  | 0x52 => withNone (.stopAudit n id) ps
  | 0x53 => withNone (.auditStatus n id) ps
  | 0x60 => withNone (.fetchNotices n id) ps
  | 0x61 =>
    match ps with
    | [e, m3, m2, m1, m0] => some (.setNotices n id e (BitVec.ofNat 32 (ofBytes [m3, m2, m1, m0])))
    | _ => none
  | 0x62 => withNone (.readSummary n id) ps
  | 0x70 => withNone (.storeStatus n id) ps
  | _ => none

/-- The request id of a REQ frame. -/
def requestId (f : List Byte) : BitVec 16 := BitVec.ofNat 16 (ofBytes ((bodyOf f).take 2))

/-- The code byte of a REQ frame. -/
def requestCode (f : List Byte) : Byte := byteAt (bodyOf f) 2

/-- The request a REQ frame carries (R155). -/
def requestIn (n : Node) (f : List Byte) : Option Instr :=
  requestOf n (requestId f) (requestCode f).toNat ((bodyOf f).drop 3)

/-- The CMD a frame carries (12.2). -/
def cmdIn (n : Node) (f : List Byte) : Option Instr :=
  let b := bodyOf f
  (slotOf (byteAt f 1)).map (fun i =>
    .cmd n i (byteAt b 0) (byteAt b 1) (BitVec.ofNat 16 (ofBytes ((b.drop 2).take 2)))
      (BitVec.ofNat 48 (ofBytes ((b.drop 4).take 6))) (BitVec.ofNat 16 (ofBytes ((b.drop 10).take 2))))

/-- The DATA a frame carries (12.2). -/
def dataIn (n : Node) (f : List Byte) : Option Instr :=
  let b := bodyOf f
  (slotOf (byteAt f 1)).map (fun i => .data n i (byteAt b 0) (b.drop 1))

/-- A well-formed RESUME: a REQ that passes the structure checks, its parameters empty (R153). -/
def isResume (f : List Byte) : Bool :=
  structureFault f == none && byteAt f 0 == 3 && requestCode f == 2 && (bodyOf f).length == 3

/-- The command that a frame received on node `n`'s port is, by the state of the port (R151 to R155);
no frame arrives on a DOWN link. -/
def commandOfFrame (p : PortState) (n : Node) (f : List Byte) : Option Instr :=
  match p with
  | .down => none
  | .halted =>
    if !frameIntact f then some (.crcCheckFailed n f)
    else if isResume f then some (.resume n (requestId f))
    else some (.haltedFrameDiscard n f)
  | .up =>
    if !frameIntact f then some (.crcCheckFailed n f)
    else if (structureFault f).isSome then some (.protocolFault n f)
    else if byteAt f 0 = 1 then cmdIn n f
    else if byteAt f 0 = 5 then dataIn n f
    else some ((requestIn n f).getD (.badRequest n f))

end Sys2Proof.Machine
end

