-- ==== Sys2Proof/Machine/Ops.lean ====
section
/-! DEFINITION. The named operations every meaning is built from: reading and replacing one record,
raising a notice, sending a frame to a node or a drive, the lease tests, the windows of a slot, the
counts of an engine and the store's update queue. -/

namespace Sys2Proof.Machine

/-! ### One record of the state -/

def State.slot (s : State) (i : Slot) : SlotRec := s.slots[i]
def State.lease (s : State) (n : Node) : Lease := s.leases.get n
def State.engine (s : State) (i : Slot) : Engine := s.engines[i]
def State.batch (s : State) (n : Node) : Batch := s.batches.get n
def State.report (s : State) (i : Slot) : Option Report := s.reports[i]
def State.bay (s : State) (i : Slot) : Bay := s.bays[i]
def State.notice (s : State) (n : Node) : NoticeQueue := s.notices.get n
def State.port (s : State) (n : Node) : Port := s.ports.get n
def State.now (s : State) : Tick := s.time.tick

def State.setSlot (s : State) (i : Slot) (r : SlotRec) : State := { s with slots := putAt s.slots i r }
def State.setLease (s : State) (n : Node) (l : Lease) : State := { s with leases := s.leases.put n l }
def State.setEngine (s : State) (i : Slot) (e : Engine) : State :=
  { s with engines := putAt s.engines i e }
def State.setBatch (s : State) (n : Node) (b : Batch) : State :=
  { s with batches := s.batches.put n b }
def State.setReport (s : State) (i : Slot) (r : Option Report) : State :=
  { s with reports := putAt s.reports i r }
def State.setBay (s : State) (i : Slot) (b : Bay) : State := { s with bays := putAt s.bays i b }
def State.setNotice (s : State) (n : Node) (q : NoticeQueue) : State :=
  { s with notices := s.notices.put n q }
def State.setPort (s : State) (n : Node) (p : Port) : State := { s with ports := s.ports.put n p }
def State.setSweep (s : State) (w : Sweep) : State := { s with sweep := w }
def State.setStore (s : State) (st : Store) : State := { s with store := st }
def State.setTime (s : State) (t : Timebase) : State := { s with time := t }

/-! ### When the controller acts -/

/-- Power is on and the reset input is released (R163). -/
def State.running (s : State) : Bool := s.power.powered && !s.power.resetAsserted

/-- An event other than those of power and reset acts only while the controller runs (R163). -/
def whenRunning (f : State → State) (s : State) : State := if s.running then f s else s

/-- A frame is taken only on a port in state UP: none arrives on a DOWN link, and a HALTED port
discards it (R150, R153). Log 14. -/
def whenUp (n : Node) (f : State → State) (s : State) : State :=
  if s.running && decide ((s.port n).state = .up) then f s else s

/-- An event acts only in a state that can have it (log 4). -/
def whenTrue (p : State → Bool) (f : State → State) (s : State) : State := if p s then f s else s

/-! ### Notices (R143, R145) -/

/-- The bit of a kind in a mask or a summary. -/
def kindBit (b : NoticeBody) : BitVec 32 := (1 : BitVec 32) <<< b.code

/-- R143: the steps a Notice Queue takes when a notice other than AUDIT_RESULT is raised. -/
def NoticeQueue.push (q : NoticeQueue) (m : Notice) : NoticeQueue :=
  let q := { q with summary := q.summary ||| kindBit m.body }
  if !q.on || q.mask.getLsbD m.body.code then q
  else if q.queue.length < 32 then { q with queue := q.queue ++ [m], attention := true }
  else { q with dropped := satInc q.dropped }

/-- A notice of this event raised to one node. -/
def State.raise (s : State) (n : Node) (slot : Option Slot) (b : NoticeBody) : State :=
  s.setNotice n ((s.notice n).push { slot := slot, tick := s.now, body := b })

/-- "Both": one notice is raised to each node (R144). -/
def State.raiseBoth (s : State) (slot : Option Slot) (b : NoticeBody) : State :=
  (s.raise .a slot b).raise .b slot b

/-! ### Frames to a node (R153, R154) -/

/-- A CPL leaves on the node's port, or is discarded there and counted while the port is not UP. -/
def State.sendCpl (s : State) (n : Node) (slot : Slot) (tag : Byte) (status : CplStatus)
    (detail : BitVec 16) : State :=
  let p := s.port n
  if p.state = .up then
    s.setPort n { p with unsent := p.unsent ++ [.cpl slot tag status (s.slot slot).generation detail] }
  else s.setPort n { p with discardedCpl := satInc p.discardedCpl }

/-- A DATA frame leaves on the node's port, or is discarded there and counted. -/
def State.sendData (s : State) (n : Node) (slot : Slot) (tag : Byte) (payload : List Byte) : State :=
  let p := s.port n
  if p.state = .up then s.setPort n { p with unsent := p.unsent ++ [.data slot tag payload] }
  else s.setPort n { p with droppedData := satInc p.droppedData }

/-- An RSP leaves on the node's port, or is discarded there. -/
def State.reply (s : State) (n : Node) (id : BitVec 16) (code : Byte) (result : Result)
    (data : List Byte) : State :=
  let p := s.port n
  if p.state = .up then s.setPort n { p with unsent := p.unsent ++ [.rsp id code result data] } else s

/-! ### Frames to a drive (R113) -/

/-- Frames go out on a bay's drive link. -/
def State.toDrive (s : State) (i : Slot) (fs : List DriveFrame) : State :=
  { s with driveOut := putAt s.driveOut i (s.driveOut[i] ++ fs) }

/-! ### The lease tests (R25) -/

/-- A lease is live when its state is LIVE or LAPSING. -/
def State.live (s : State) (n : Node) : Bool :=
  decide ((s.lease n).state = .live) || decide ((s.lease n).state = .lapsing)

/-- R25 item 2: a node is gone when its lease is EXPIRED, or ABSENT with the grace ended. -/
def State.gone (s : State) (n : Node) : Bool :=
  decide ((s.lease n).state = .expired) || (decide ((s.lease n).state = .absent) && !s.time.grace)

/-- R36 item 2: a node that sent LEAVE in EXPIRED stays gone. While the grace runs R25 says otherwise of
every ABSENT lease; the model's choice (log 33) is that this test governs what its expiry has begun, the
marks of R99, and that R25 governs the rules that name it or give its words (R10, R82, R124). -/
def State.staysGone (s : State) (n : Node) : Bool :=
  s.gone n || (decide ((s.lease n).state = .absent) && (s.lease n).leftGone)

/-! ### Counts of an engine (R46) -/

/-- The entry holds an ACTIVE command of the node. -/
def TagEntry.activeOf (n : Node) (t : TagEntry) : Bool :=
  match t.role with
  | .active c _ => decide (c.node = n)
  | _ => false

def TagEntry.isActive (t : TagEntry) : Bool :=
  match t.role with
  | .active _ _ => true
  | _ => false

def TagEntry.isOrphan (t : TagEntry) : Bool :=
  match t.role with
  | .orphaned _ _ => true
  | _ => false

def TagEntry.isProbe (t : TagEntry) : Bool :=
  match t.role with
  | .probe _ => true
  | _ => false

/-- R46: a node's waiting entries plus its ACTIVE entries. -/
def Engine.outstanding (e : Engine) (n : Node) : Nat :=
  (e.waiting.filter (fun c => decide (c.node = n))).length + (e.tags.filter (TagEntry.activeOf n)).length

/-- The number of ORPHANED entries. -/
def Engine.orphans (e : Engine) : Nat := (e.tags.filter TagEntry.isOrphan).length

/-- The entry that holds a drive tag, or `none` for a FREE tag and a tag above 31 (R60). -/
def Engine.entry (e : Engine) (tag : Nat) : Option TagEntry :=
  e.tags.find? (fun t => decide (t.tag.val = tag))

/-- The engine with a tag FREE. -/
def Engine.free (e : Engine) (tag : DriveTag) : Engine :=
  { e with tags := e.tags.filter (fun t => decide (t.tag ≠ tag)) }

/-! ### Windows of a slot (R68, R76) -/

/-- R68: a clear writes the last clear and leaves the entry UNUSED with hit count 0. -/
def Window.clear (w : Window) (cause : ClearCause) : Window :=
  match w.active with
  | some a =>
    { active := none, hits := 0,
      lastClear := some { cause := cause, slot := a.slot, kind := a.kind, first := a.first,
                          last := a.last, hits := w.hits } }
  | none => w

/-- The entry is ACTIVE on the slot. -/
def Window.onSlot (w : Window) (i : Slot) : Bool :=
  match w.active with
  | some a => decide (a.slot = i)
  | none => false

/-- The four window indices. -/
def allWindows : List (Fin 4) := [0, 1, 2, 3]

/-- R76: every ACTIVE entry of the slot is cleared with cause COMMIT. -/
def State.clearWindows (s : State) (i : Slot) : State :=
  { s with windows := allWindows.foldl (fun v k =>
      if v[k].onSlot i then putAt v k (v[k].clear .commit) else v) s.windows }

/-! ### The update queue (R159, R160) -/

/-- R159: the update takes over the place and the waiting parties of a waiting update of its slot,
and is appended at the tail where there is none. -/
def enqueue (u : Update) : List Update → List Update
  | [] => [u]
  | v :: vs =>
    if v.slot = u.slot then { u with commitWaits := u.commitWaits || v.commitWaits } :: vs
    else v :: enqueue u vs

/-- R160: in READY with a queue that is not empty the head update leaves and its write starts. -/
def Store.kick (st : Store) (now : Tick) : Store :=
  match st.mode, st.queue with
  | .ready, u :: rest => { st with mode := .writing u 1 now, queue := rest }
  | _, _ => st

/-- An update with the slot's owner, generation and recorded fingerprint at this event is queued. In
FAULTED it completes at once as "not stored" and nothing is written (R161). -/
def State.queueUpdate (s : State) (i : Slot) (commitWaits : Bool) : State :=
  match s.store.mode with
  | .faulted => s
  | _ =>
    let u : Update :=
      { slot := i, owner := (s.slot i).owner, generation := (s.slot i).generation,
        fingerprint := (s.bay i).recorded, commitWaits := commitWaits }
    s.setStore ({ s.store with queue := enqueue u s.store.queue }.kick s.now)

/-- The store is FAULTED. -/
def State.storeFaulted (s : State) : Bool := decide (s.store.mode = .faulted)

end Sys2Proof.Machine
end

