-- ==== Sys2Proof/Machine/Engine.lean ====
section
/-! DEFINITION. What a Forwarding Engine does for itself and for other blocks (R55 to R57, R64 to
R67), with the report entries it hands over (R104, R106, R107). -/

namespace Sys2Proof.Machine

/-! ### The dispatch arbiter (R55 to R57) -/

/-- The drive tags in ascending order. -/
def allTags : List DriveTag := List.finRange 32

/-- The lowest-numbered FREE tag. -/
def lowestFree (ts : List TagEntry) : Option DriveTag :=
  allTags.find? (fun k => ts.all (fun t => decide (t.tag ≠ k)))

/-- R57: the probe request is served first, in READY or SUSPECT, if a tag is FREE. The Audit Unit is
told the tag and sets the probe deadline (R134). -/
def State.serveProbe (s : State) (i : Slot) : State :=
  let e := s.engine i
  if e.probeRequest && (decide ((s.bay i).state = .ready) || decide ((s.bay i).state = .suspect)) then
    match lowestFree e.tags with
    | some k =>
      ((s.setEngine i { e with probeRequest := false, tags := e.tags ++ [⟨k, .probe true⟩] }).toDrive i
        [.identifyTagged k]).setSweep
          { s.sweep with probe := some (.dispatched k (later s.now 10000)) }
    | none => s
  else s

/-- R56: waiting entries are dispatched in list order, each to the lowest FREE tag, until either runs
out. The result is the entries left waiting, the tag table and the frames sent. -/
def dispatchAll (now : Tick) :
    List Command → List TagEntry → List Command × List TagEntry × List DriveFrame
  | [], ts => ([], ts, [])
  | c :: cs, ts =>
    match lowestFree ts with
    | none => (c :: cs, ts, [])
    | some k =>
      let r := dispatchAll now cs (ts ++ [⟨k, .active c now⟩])
      (r.1, r.2.1, .command k c.kind c.lba c.count :: r.2.2)

/-- The waiting list is served while the bay is READY. -/
def State.serveWaiting (s : State) (i : Slot) : State :=
  let e := s.engine i
  if (s.bay i).state = .ready then
    let r := dispatchAll s.now e.waiting e.tags
    (s.setEngine i { e with waiting := r.1, tags := r.2.1 }).toDrive i r.2.2
  else s

/-- R55: a present probe request first, then the waiting list. -/
def State.arbiter (s : State) (i : Slot) : State := (s.serveProbe i).serveWaiting i

/-! ### CPLs for commands that end (R64, R66, R67) -/

/-- A CPL with detail 0 for each command, in list order. -/
def State.sendCpls (s : State) (i : Slot) (status : CplStatus) (cs : List Command) : State :=
  cs.foldl (fun s c => s.sendCpl c.node i c.tag status 0) s

/-- R66: every waiting entry of both nodes is removed and answered with the status. -/
def State.withdraw (s : State) (i : Slot) (status : CplStatus) : State :=
  let e := s.engine i
  (s.setEngine i { e with waiting := [] }).sendCpls i status e.waiting

/-! ### Report entries (R103 to R107) -/

/-- R106 item 1: the PENDING entry of a node tag takes the outcome. -/
def fillTag (tag : Byte) (fate : Fate) (es : List ReportEntry) : List ReportEntry :=
  es.map (fun e => if e.tag = tag ∧ e.fate = .pending then { e with fate := fate } else e)

/-- R106 items 2 and 3: every PENDING entry takes the outcome. -/
def fillPending (fate : Fate) (es : List ReportEntry) : List ReportEntry :=
  es.map (fun e => if e.fate = .pending then { e with fate := fate } else e)

/-- The number of entries whose outcome is PENDING (R102). -/
def Report.pending (r : Report) : Nat := (r.entries.filter (fun e => decide (e.fate = .pending))).length

/-- An orphan of the bay is resolved: its report entry takes the outcome. -/
def State.fillReport (s : State) (i : Slot) (tag : Byte) (fate : Fate) : State :=
  match s.report i with
  | some r => s.setReport i (some { r with entries := fillTag tag fate r.entries })
  | none => s

/-- R107: a link reset ends the PENDING entries and marks the report if it ends at least one. -/
def Report.abort (r : Report) (cause : ResetCause) (now : Tick) : Report :=
  { r with
    entries := fillPending .abortedByReset r.entries
    resetUsed := if r.pending = 0 then r.resetUsed else some (cause, now) }

/-! ### The end of the tag table (R67) -/

/-- The commands of the ACTIVE entries, in dispatch order (log 26). -/
def activeCommands (ts : List TagEntry) : List Command :=
  ts.filterMap (fun t => match t.role with
    | .active c _ => some c
    | _ => none)

/-- R67, cause link reset: every entry is ended, ACTIVE ones with ABORTED_RESET, and the PENDING
report entries take ABORTED_BY_RESET. -/
def State.endTagsByReset (s : State) (i : Slot) (cause : ResetCause) : State :=
  let e := s.engine i
  let s := (s.setEngine i { e with tags := [] }).setReport i ((s.report i).map (·.abort cause s.now))
  s.sendCpls i .abortedReset (activeCommands e.tags)

/-- R67, cause removal: ACTIVE entries end DRIVE_REMOVED and PENDING report entries take LOST_REMOVED. -/
def State.endTagsByRemoval (s : State) (i : Slot) : State :=
  let e := s.engine i
  let s := (s.setEngine i { e with tags := [] }).setReport i
    ((s.report i).map (fun r => { r with entries := fillPending .lostRemoved r.entries }))
  s.sendCpls i .driveRemoved (activeCommands e.tags)

/-! ### The fence (R65, R104) -/

/-- Step 2 of R65: an ACTIVE entry of the old owner becomes ORPHANED. -/
def TagEntry.orphan (x : Node) (t : TagEntry) : TagEntry :=
  match t.role with
  | .active c d => if c.node = x then { t with role := .orphaned c d } else t
  | _ => t

/-- The AT_DRIVE entries of a report, one for each ACTIVE entry of the old owner, oldest first. -/
def atDriveEntries (x : Node) (ts : List TagEntry) : List ReportEntry :=
  ts.filterMap (fun t => match t.role with
    | .active c d =>
      if c.node = x then
        some { tag := c.tag, kind := c.kind, lba := c.lba, count := c.count, dispatched := some d,
               fate := .pending }
      else none
    | _ => none)

/-- The WAITING entries of a report, in the order of admission. -/
def waitingEntries (x : Node) (cs : List Command) : List ReportEntry :=
  (cs.filter (fun c => decide (c.node = x))).map (fun c =>
    { tag := c.tag, kind := c.kind, lba := c.lba, count := c.count, dispatched := none,
      fate := .neverSent })

/-- R65: the old owner's waiting entries leave the list and its ACTIVE entries become ORPHANED. -/
def Engine.fence (e : Engine) (x : Node) : Engine :=
  { e with
    waiting := e.waiting.filter (fun c => decide (c.node ≠ x))
    tags := e.tags.map (TagEntry.orphan x) }

/-- R104: the entries of the report, AT_DRIVE first, then WAITING. -/
def Engine.fenceEntries (e : Engine) (x : Node) : List ReportEntry :=
  atDriveEntries x e.tags ++ waitingEntries x e.waiting

end Sys2Proof.Machine
end

