-- ==== Sys2Proof/Machine/Commit.lean ====
section
/-! DEFINITION. The commit step (R7 to R10) and the batches that cause and follow commits (R21, R22,
R78 to R99). A commit that ends at the event that begins it (store FAULTED, R8) can end a batch, whose
end can create and, with W = 0, run another batch; `runLevel` follows that chain. Log 13. -/

namespace Sys2Proof.Machine

/-! ### Members and reports -/

/-- The member record of a slot takes new values. -/
def updateMember (i : Slot) (f : Member → Member) (ms : List Member) : List Member :=
  ms.map (fun m => if m.slot = i then f m else m)

/-- A member's status in a node's batch. -/
def State.setMember (s : State) (n : Node) (i : Slot) (f : Member → Member) : State :=
  s.setBatch n { s.batch n with members := updateMember i f (s.batch n).members }

/-- A final status (R79). -/
def MemberStatus.isFinal : MemberStatus → Bool
  | .gathered => false
  | .draining => false
  | .committing => false
  | _ => true

/-- The number of members with a status. -/
def countStatus (st : MemberStatus) (ms : List Member) : Nat :=
  (ms.filter (fun m => decide (m.status = st))).length

/-- R108: the report becomes FINAL. -/
def State.closeReport (s : State) (i : Slot) (g : Gen) (stored : Bool) : State :=
  s.setReport i ((s.report i).map (fun r =>
    { r with closing := some { generationAfter := g, stored := stored, commitTick := s.now } }))

/-! ### Beginning a commit (R7) -/

/-- R1: the slot enters a phase, and the optional fields that the phase does not have are removed. -/
def SlotRec.enter (r : SlotRec) (p : Phase) (target : Option Owner) (path : Option CommitPath)
    (batch : Option Node) (deadline : Option Tick) : SlotRec :=
  { r with phase := p, target := target, path := path, batch := batch, drainDeadline := deadline }

/-- R7: COMMITTING with target and path, the owner set, the generation advanced, the marks and
deadlines removed. -/
def SlotRec.begin (r : SlotRec) (target : Owner) (path : CommitPath) : SlotRec :=
  { r.enter .committing (some target) (some path) none none with
    owner := target, generation := succGen r.generation
    autoPending := none, storeLost := false, former := some r.owner }

/-- R7 to the end of step 3: the record and the windows. -/
def State.beginCommit (s : State) (i : Slot) (target : Owner) (path : CommitPath) : State :=
  (s.setSlot i ((s.slot i).begin target path)).clearWindows i

/-- The commit step of R7. `fin` is what a completion does; it follows at once while the store is
FAULTED (R8). -/
def startCommitWith (fin : Slot → Bool → State → State) (i : Slot) (target : Owner) (path : CommitPath)
    (s : State) : State :=
  let s := s.beginCommit i target path
  if s.storeFaulted then fin i false s else s.queueUpdate i true

/-! ### Joining, returning and marking slots (R21, R81, R98) -/

/-- The phase a prior phase names. -/
def PriorPhase.phase : PriorPhase → Phase
  | .owned => .owned
  | .unowned => .unowned

/-- R21: a return request sets a CLAIMED slot of the batch back to its prior phase. -/
def State.returnSlot (s : State) (n : Node) (i : Slot) (prior : PriorPhase) : State :=
  let r := s.slot i
  if r.phase = .claimed ∧ r.batch = some n then
    s.setSlot i (r.enter prior.phase none none none none)
  else s

/-- The prior phase a join hands back (R21). -/
def priorOf (r : SlotRec) : PriorPhase := if r.phase = .owned then .owned else .unowned

/-- R79, R81: the member record of a join; a dropped record of the slot is used again in its place. -/
def joinMembers (i : Slot) (prior : PriorPhase) (old : Owner) (ms : List Member) : List Member :=
  let m : Member :=
    { slot := i, prior := prior, oldOwner := old, status := .gathered, orphans := none,
      newGeneration := none, stored := none }
  if ms.any (fun k => decide (k.slot = i)) then ms.map (fun k => if k.slot = i then m else k)
  else ms ++ [m]

/-- R21, R81: the slot becomes CLAIMED in the node's batch. -/
def State.join (s : State) (n : Node) (i : Slot) : State :=
  let r := s.slot i
  let b := s.batch n
  (s.setSlot i (r.enter .claimed none none (some n) none)).setBatch n
    { b with members := joinMembers i (priorOf r) r.owner b.members }

/-- R81, R98: a new batch; the number advances and every other field starts afresh. -/
def State.createBatch (s : State) (n : Node) (origin : Origin) : State :=
  s.setBatch n
    { state := .gathering, number := (s.batch n).number + 1, origin := some origin, members := [],
      gatherDeadline := none, startTick := none, endTick := none, outcome := none }

/-- The auto-pending mark of a slot (R98, R99). -/
def State.setAutoPending (s : State) (i : Slot) (m : Option Node) : State :=
  s.setSlot i { s.slot i with autoPending := m }

/-! ### The end of a batch (R96, R99) -/

/-- R96: the outcome of a batch that ran. -/
def runOutcome (ms : List Member) : BatchOutcome :=
  if countStatus .taken ms + countStatus .takenFaulted ms = 0 then .noneTaken
  else if countStatus .skippedHeld ms = 0 then .allTaken else .partialTaken

/-- R96: the record ends and BATCH_ENDED is raised to the claimant. -/
def State.closeBatch (s : State) (n : Node) (outcome : BatchOutcome) : State :=
  let b := s.batch n
  (s.setBatch n { b with state := .ended, endTick := some s.now, outcome := some outcome,
                         gatherDeadline := none }).raise n none
    (.batchEnded b.number b.origin outcome (countStatus .taken b.members)
      (countStatus .takenFaulted b.members) (countStatus .skippedHeld b.members)
      (countStatus .droppedOwnerReturned b.members) (countStatus .droppedCancelled b.members))

/-- R99: a marked slot still qualifies for the node's new batch. An owner that sent LEAVE in EXPIRED stays
gone here, the grace running or not (R36 item 2): the model's choice, log 33. -/
def State.stillQualifies (s : State) (n : Node) (i : Slot) : Bool :=
  let r := s.slot i
  decide (r.phase = .owned) && decide (r.owner = some n.partner) && s.staysGone n.partner &&
    decide (r.policy = .auto) && s.live n

/-! ### The run (R88, R89) -/

/-- R104, R105: a report is opened, in place of an earlier one. -/
def openReport (earlier : Option Report) (x n : Node) (g : Gen) (now : Tick) (es : List ReportEntry) :
    Report :=
  { oldOwner := x, newOwner := n, generationBefore := g, fenceTick := now, closing := none,
    resetUsed := none, replacedUnread := (earlier.map (fun r => !r.readToEnd)).getD false,
    readToEnd := false, entries := es }

/-- R89 steps 1 to 3: the report is opened with the fenced commands, the slot joins the old owner's
lost set and the engine performs its fence. -/
def State.fenceOwner (s : State) (i : Slot) (x n : Node) : State :=
  let e := s.engine i
  let l := s.lease x
  ((s.setReport i (some (openReport (s.report i) x n (s.slot i).generation s.now (e.fenceEntries x)))).setLease x
    { l with lost := l.lost ||| slotBit i }).setEngine i (e.fence x)

/-- R22, R89 step 4 with n ≥ 1: the slot drains until now + D. -/
def State.drain (s : State) (n : Node) (i : Slot) (orphans : Nat) : State :=
  (s.setSlot i ((s.slot i).enter .draining none none (some n)
    (some (later s.now (drainLimit s.timing orphans))))).setMember n i
    (fun m => { m with status := .draining, orphans := some orphans })

/-- R88 items 1 to 3 and R89: one GATHERED member at the run start. -/
def runMember (fin : Slot → Bool → State → State) (n : Node) (m : Member) (s : State) : State :=
  let i := m.slot
  if (s.bay i).state = .held then
    (s.setMember n i (fun k => { k with status := .skippedHeld })).returnSlot n i m.prior
  else
    let commit := fun s : State =>
      startCommitWith fin i (some n) .takeover (s.setMember n i (fun k => { k with status := .committing }))
    match m.prior with
    | .unowned => commit s
    | .owned =>
      let s := s.fenceOwner i (m.oldOwner.getD n.partner) n
      if (s.engine i).orphans = 0 then commit s else s.drain n i (s.engine i).orphans

/-- R95 step 5, R88: the batch ends when it runs and every member has a final status. -/
def batchDone (b : Batch) : Bool :=
  decide (b.state = .running) && b.members.all (fun m => m.status.isFinal)

/-- R88: the batch runs and its GATHERED members are handled in order. -/
def runMembers (fin : Slot → Bool → State → State) (n : Node) (s : State) : State :=
  let b := s.batch n
  let s := s.setBatch n { b with state := .running, gatherDeadline := none, startTick := some s.now }
  (b.members.filter (fun m => decide (m.status = .gathered))).foldl (fun s m => runMember fin n m s) s

/-- R81, R98: the gather deadline becomes now + W × 10. With W = 0 it is reached at this event and
`run` follows (R83). -/
def gatherWith (run : Node → State → State) (n : Node) (s : State) : State :=
  let s := s.setBatch n
    { s.batch n with gatherDeadline := some (later s.now (s.timing.gatherWindow * 10)) }
  if s.timing.gatherWindow = 0 then run n s else s

/-- R99: the deferred automatic claims of a node whose batch has ended. -/
def deferredWith (run : Node → State → State) (n : Node) (s : State) : State :=
  let marked := allSlots.filter (fun i => decide ((s.slot i).autoPending = some n))
  let joining := marked.filter (fun i => s.stillQualifies n i)
  let s := marked.foldl (fun s i => s.setAutoPending i none) s
  if joining = [] then s
  else gatherWith run n (joining.foldl (fun s i => s.join n i) (s.createBatch n .auto))

/-- R96: the batch ends and its deferred claims are settled. -/
def endBatchWith (run : Node → State → State) (n : Node) (outcome : BatchOutcome) (s : State) : State :=
  deferredWith run n (s.closeBatch n outcome)

/-- The batch ends if it is done (R95 step 5). -/
def checkBatchWith (run : Node → State → State) (n : Node) (s : State) : State :=
  if batchDone (s.batch n) then endBatchWith run n (runOutcome (s.batch n).members) s else s

/-- R98: the slots selected by a trigger are claimed on `y`'s behalf, by the state of its batch. -/
def claimForWith (run : Node → State → State) (y : Node) (is : List Slot) (s : State) : State :=
  if is = [] then s
  else
    match (s.batch y).state with
    | .running => is.foldl (fun s i => s.setAutoPending i (some y)) s
    | .gathering => gatherWith run y (is.foldl (fun s i => s.join y i) s)
    | _ => gatherWith run y (is.foldl (fun s i => s.join y i) (s.createBatch y .auto))

/-! ### Completing a commit (R9, R10, R95) -/

/-- R155: the RSP of the CLAIM_FREE awaiting reply for the slot, if it still awaits one. -/
def State.claimReply (s : State) (n : Node) (i : Slot) (stored : Bool) : State :=
  match (s.port n).awaiting.find? (fun w => decide (w.slot = i)) with
  | some w =>
    let p := s.port n
    (s.setPort n { p with awaiting := p.awaiting.filter (fun v => decide (v.slot ≠ i)) }).reply n w.id 0x21
      .done (genItem (s.slot i).generation ++ flag stored)
  | none => s

/-- R95 steps 1 to 4: the member's results. -/
def State.memberDone (s : State) (n : Node) (i : Slot) (stored : Bool) : State :=
  let g := (s.slot i).generation
  match (s.batch n).members.find? (fun m => decide (m.slot = i)) with
  | none => s
  | some m =>
    let status := if (s.bay i).state = .failed then MemberStatus.takenFaulted else MemberStatus.taken
    let s := s.setMember n i (fun k =>
      { k with status := status, newGeneration := some g, stored := some stored })
    match m.prior, m.oldOwner with
    | .owned, some x =>
      ((s.closeReport i g stored).raise n (some i) (.slotTaken g stored)).raise x (some i)
        (.slotLost (some n) g (((s.report i).map (fun r => r.entries.length)).getD 0))
    | _, _ => s.raise n (some i) (.slotTaken g stored)

/-- R9: the slot leaves COMMITTING for OWNED or UNOWNED. -/
def SlotRec.rest (r : SlotRec) : SlotRec :=
  { r.enter (if r.owner.isSome then .owned else .unowned) none none none none with former := none }

/-- R9: the results of the commit path. -/
def State.commitResults (s : State) (i : Slot) (r : SlotRec) (stored : Bool) : State :=
  match r.path, r.owner with
  | some .claim, some n => (s.claimReply n i stored).raise n (some i) (.slotTaken r.generation stored)
  | some .release, _ => s.raiseBoth (some i) (.slotReleased (r.former.getD none) r.generation)
  | some .handover, o => s.raiseBoth (some i) (.slotHanded o r.generation)
  | some .takeover, some n => s.memberDone n i stored
  | _, _ => s

/-- R10: the slot is claimed for the partner of a new owner that is gone, in R25's words (log 33). -/
def commitCheckWith (run : Node → State → State) (i : Slot) (s : State) : State :=
  let r := s.slot i
  match r.phase, r.owner with
  | .owned, some x =>
    if s.gone x && decide (r.policy = .auto) && s.live x.partner then claimForWith run x.partner [i] s
    else s
  | _, _ => s

/-- The batch of a takeover commit ends if this was its last member (R95 step 5). -/
def afterResultsWith (run : Node → State → State) (r : SlotRec) (s : State) : State :=
  match r.path, r.owner with
  | some .takeover, some n => checkBatchWith run n s
  | _, _ => s

/-- The store has answered the commit of a COMMITTING slot: R9, then R95 step 5, then R10. -/
def finishWith (run : Node → State → State) (i : Slot) (stored : Bool) (s : State) : State :=
  if (s.slot i).phase = .committing then
    commitCheckWith run i (afterResultsWith run (s.slot i)
      ((s.setSlot i (s.slot i).rest).commitResults i (s.slot i) stored))
  else s

/-- The run of a node's batch (R88). The first argument bounds how many runs may follow one another
at one event, which takes a FAULTED store and W = 0; the rules allow at most two (log 13). -/
def runLevel : Nat → Node → State → State
  | 0, _, s => s
  | k + 1, n, s => checkBatchWith (runLevel k) n (runMembers (finishWith (runLevel k)) n s)

/-- R88: the run of a node's batch with every consequence. -/
def runBatch (n : Node) (s : State) : State := runLevel 4 n s

/-- A completion of a commit with every consequence. -/
def commitDone (i : Slot) (stored : Bool) (s : State) : State := finishWith runBatch i stored s

/-- The commit step of R7. -/
def startCommit (i : Slot) (target : Owner) (path : CommitPath) (s : State) : State :=
  startCommitWith commitDone i target path s

/-- R83: a gather deadline set, and the run at once with W = 0. -/
def gather (n : Node) (s : State) : State := gatherWith runBatch n s

/-- R96 with R99. -/
def endBatch (n : Node) (outcome : BatchOutcome) (s : State) : State := endBatchWith runBatch n outcome s

/-- R98: the automatic-claim trigger for a gone node. -/
def trigger (x : Node) (s : State) : State :=
  if s.live x.partner then
    claimForWith runBatch x.partner
      (allSlots.filter (fun i => decide ((s.slot i).phase = .owned) && decide ((s.slot i).owner = some x) &&
        decide ((s.slot i).policy = .auto))) s
  else s

/-! ### The events that let a slot commit (R18, R91) -/

/-- R18: the HANDING slot of the bay commits when its owner's outstanding count is 0. A target of NONE
is a RELEASE and a target node a HANDOVER (log 25). -/
def handingCheck (i : Slot) (s : State) : State :=
  let r := s.slot i
  match r.phase, r.owner, r.target with
  | .handing, some x, some t =>
    if (s.engine i).outstanding x = 0 then
      startCommit i t (if t.isSome then .handover else .release) s
    else s
  | _, _, _ => s

/-- R91: the DRAINING member of the bay commits when no orphan is left and the bay is not RESETTING. -/
def drainCheck (i : Slot) (s : State) : State :=
  let r := s.slot i
  match r.phase, r.batch with
  | .draining, some n =>
    if (s.engine i).orphans = 0 ∧ (s.bay i).state ≠ .resetting then
      startCommit i (some n) .takeover (s.setMember n i (fun k => { k with status := .committing }))
    else s
  | _, _ => s

end Sys2Proof.Machine
end

