-- ==== Sys2Proof/Machine/Sweep.lean ====
section
/-! DEFINITION. The Audit Unit's walk: handling a slot, producing and placing a result, the next step,
the end of a sweep (R130, R132 to R137, R139). -/

namespace Sys2Proof.Machine

/-- R130: a result about a slot, with the values of this event. -/
def State.auditResult (s : State) (i : Slot) (outcome : AuditOutcome) (fp : Option Fingerprint)
    (status : Option (BitVec 16)) : AuditResult :=
  { slot := i, outcome := outcome, owner := (s.slot i).owner, generation := (s.slot i).generation,
    phase := (s.slot i).phase, bayState := (s.bay i).state, fingerprint := fp, driveStatus := status,
    tick := s.now }

/-- The AUDIT_RESULT notice that carries a result (R144). -/
def AuditResult.notice (r : AuditResult) : Notice :=
  { slot := some r.slot, tick := r.tick,
    body := .auditResult r.outcome r.owner r.generation r.phase r.bayState }

/-- R143: AUDIT_RESULT finds a free place. The mask is not tested. -/
def NoticeQueue.hasPlace (q : NoticeQueue) : Bool := q.on && decide (q.queue.length < 32)

/-- The result is appended and leaves the holder; results issued rises (R132, R137). -/
def State.placeResult (s : State) (w : SweepRun) (r : AuditResult) : State :=
  let q := s.notice w.requester
  (s.setNotice w.requester { q with queue := q.queue ++ [r.notice], attention := true }).setSweep
    { s.sweep with holder := none, state := .probing, run := some { w with issued := satInc w.issued } }

/-- The result stays in the holder and the sweep is PAUSED_FULL (R137). -/
def State.holdResult (s : State) (r : AuditResult) : State :=
  s.setSweep { s.sweep with holder := some r, state := .pausedFull }

/-- AUDIT_RESULT marks its summary entry (R143 step 1). -/
def State.markResult (s : State) (n : Node) (r : AuditResult) : State :=
  s.setNotice n { s.notice n with summary := (s.notice n).summary ||| kindBit r.notice.body }

/-- R130: the result is written into its slot's entry of the table. -/
def State.tableResult (s : State) (r : AuditResult) : State :=
  s.setSweep { s.sweep with table := putAt s.sweep.table r.slot (some r) }

/-- R139: the waiting probe request is removed, a dispatched probe is no longer expected. -/
def State.releaseProbe (s : State) : State :=
  match s.sweep.current, s.sweep.probe with
  | some i, some .requested => s.setEngine i { s.engine i with probeRequest := false }
  | some i, some (.dispatched k _) =>
    s.setEngine i { s.engine i with
      tags := (s.engine i).tags.map (fun t =>
        if t.tag = k ∧ t.isProbe then { t with role := .probe false } else t) }
  | _, _ => s

/-- R139: the sweep ends and AUDIT_ENDED is raised to its requester. The current slot leaves the record,
the model's choice between R129's table and its sentence (log 35). -/
def endSweep (reason : EndReason) (s : State) : State :=
  match s.sweep.run with
  | some w =>
    let s := s.releaseProbe
    (s.setSweep { s.sweep with state := .idle, current := none, probe := none, holder := none,
                               ended := some (reason, s.now) }).raise w.requester none
      (.auditEnded reason w.issued w.pass)
  | none => s

/-- The sweep that runs has this node as its requester. -/
def Sweep.runsFor (w : Sweep) (n : Node) : Bool :=
  decide (w.state ≠ .idle) && (match w.run with
    | some r => decide (r.requester = n)
    | none => false)

/-- R139: the sweep ends if this node is its requester. -/
def endSweepOf (n : Node) (reason : EndReason) (s : State) : State :=
  if s.sweep.runsFor n then endSweep reason s else s

/-- R133 items 1 and 2: the outcome that needs no probe. -/
def State.outcomeAtOnce (s : State) (i : Slot) : Option AuditOutcome :=
  match (s.bay i).state, (s.slot i).phase with
  | .empty, _ => some .absent
  | .bringup, _ | .resetting, _ | .held, _ | .failed, _ => some .notProbed
  | _, .draining | _, .handing | _, .committing => some .notProbed
  | _, _ => none

/-- R133 item 3: the bay's probe request is set and its arbiter runs (R57). -/
def State.requestProbe (s : State) (i : Slot) : State :=
  ((s.setEngine i { s.engine i with probeRequest := true }).setSweep
    { s.sweep with state := .probing, current := some i, probe := some .requested }).arbiter i

/-- R132: what follows a result placed in the requester's queue. -/
inductive Advance where
  /-- The sweep ends. -/
  | ends (reason : EndReason)
  /-- PAUSED_STEP at the next slot. -/
  | pauses (next : Slot)
  /-- The next slot is handled, with the pass count as it then is. -/
  | handles (next : Slot) (pass : Count16)
  deriving DecidableEq, Repr

/-- R132, for the current slot and the record with results issued already raised. -/
def advanceOf (w : SweepRun) (cur : Slot) : Advance :=
  if w.budget ≠ 0 ∧ w.budget.toNat ≤ w.issued.toNat then .ends .budget
  else if cur = w.last ∧ w.mode ≠ .cyclic then .ends .done
  else if w.mode = .stepped then .pauses (cur + 1)
  else if cur = w.last then .handles w.first (satInc w.pass)
  else .handles (cur + 1) w.pass

/-- A result produced for the current slot (R137): table, holder, summary, and its place if there is
one. The second value says whether it was placed. -/
def State.produce (s : State) (w : SweepRun) (r : AuditResult) : State × Bool :=
  let s := (s.tableResult r).markResult w.requester r
  if (s.notice w.requester).hasPlace then (s.placeResult w r, true) else (s.holdResult r, false)

/-- The walk (R132, R133): after a result is placed at slot `cur`, slots are settled in turn until one
needs a probe, the queue is full, or the sweep pauses or ends. Each turn fills one of the queue's 32
places, so 33 turns are enough. -/
def walkOn : Nat → Slot → State → State
  | 0, _, s => s
  | k + 1, cur, s =>
    match s.sweep.run with
    | none => s
    | some w =>
      match advanceOf w cur with
      | .ends reason => endSweep reason s
      | .pauses next => s.setSweep { s.sweep with state := .pausedStep, current := some next }
      | .handles next pass =>
        let w := { w with pass := pass }
        let s := s.setSweep { s.sweep with state := .probing, current := some next, run := some w }
        match s.outcomeAtOnce next with
        | none => s.requestProbe next
        | some o =>
          let r := s.produce w (s.auditResult next o none none)
          if r.2 then walkOn k next r.1 else r.1

/-- A result for the current slot is produced, and the sweep goes on if it was placed (R132, R137). -/
def settle (cur : Slot) (r : AuditResult) (s : State) : State :=
  match s.sweep.run with
  | none => s
  | some w =>
    let p := s.produce w r
    if p.2 then walkOn 33 cur p.1 else p.1

/-- The sweep reaches a slot (R133). -/
def handleSlot (i : Slot) (s : State) : State :=
  let s := s.setSweep { s.sweep with state := .probing, current := some i }
  match s.outcomeAtOnce i with
  | none => s.requestProbe i
  | some o => settle i (s.auditResult i o none none) s

/-- The outstanding probe is settled with an outcome (R134, R135). -/
def settleProbe (i : Slot) (o : AuditOutcome) (fp : Option Fingerprint) (status : Option (BitVec 16))
    (s : State) : State :=
  let s := s.setSweep { s.sweep with probe := none }
  settle i (s.auditResult i o fp status) s

/-- A probe of the sweep is outstanding at the bay. -/
def State.probing (s : State) (i : Slot) : Bool :=
  decide (s.sweep.state = .probing) && decide (s.sweep.current = some i) && s.sweep.probe.isSome

end Sys2Proof.Machine
end

