-- ==== Sys2Proof/Machine/Bays.lean ====
section
/-! DEFINITION. The Bay Controllers: presence, bring-up, identity, link reset, and the node requests
on a bay (R112 to R128), with the drive's completions and frames (R58 to R60, R62). Where a rule gives
no order among blocks, the bay acts first, then the slot's commit, then the audit result, then the
arbiter (log 12). -/

namespace Sys2Proof.Machine

/-! ### Shared operations -/

/-- The capacity and the presented fingerprint leave the record (R112). -/
def Bay.forget (b : Bay) : Bay := { b with capacity := none, presented := none }

/-- R117, R126: the bay enters BRINGUP and the controller trains the link and waits for ready. -/
def Bay.bringUp (b : Bay) (now : Tick) : Bay :=
  { b with state := .bringup, bringupDeadline := some (later now 100000), awaits := .readySignal,
           linkHeld := false }

/-- R118: the slot counts as owned when its recorded owner is A or B. -/
def State.owned (s : State) (i : Slot) : Bool := (s.slot i).owner.isSome

/-- R120: the effects of a reset that starts, in order, but for the audit result. -/
def State.beginReset (s : State) (i : Slot) (cause : ResetCause) : State :=
  let b := s.bay i
  let s := s.setBay i { b.forget with
    state := .resetting, resetCause := some cause
    resetDeadline := some (later s.now (s.timing.resetLimit * 10))
    resetsStarted := satInc b.resetsStarted, awaits := .readySignal }
  let s := s.setEngine i { s.engine i with probeRequest := false }
  (s.endTagsByReset i cause).toDrive i [.linkReset]

/-- The bay is READY or SUSPECT, so that a link reset starts (R120 item 1). -/
def State.resettable (s : State) (i : Slot) : Bool :=
  decide ((s.bay i).state = .ready) || decide ((s.bay i).state = .suspect)

/-- R120: a request for a link reset, judged on the bay state. A HANDING slot commits if the reset
ended its owner's last command (R18), and a probe the reset ended is NOT_PROBED (R134). -/
def linkReset (i : Slot) (cause : ResetCause) (s : State) : State :=
  if s.resettable i then
    let probing := s.probing i
    let s := handingCheck i (s.beginReset i cause)
    if probing then settleProbe i .notProbed none none s else s
  else s

/-- R118: the bay becomes SUSPECT with the answer as presented fingerprint, its waiting commands end
CHECK_DRIVE and DRIVE_SUSPECT is raised to both nodes. -/
def State.becomeSuspect (s : State) (i : Slot) (fp : Fingerprint) (cap : Lba) : State :=
  let s := s.setBay i { s.bay i with state := .suspect, presented := some fp, capacity := some cap }
  (s.withdraw i .checkDrive).raiseBoth (some i) (.driveSuspect fp)

/-- The bay becomes or stays READY with the answer as recorded fingerprint (R118, R119). -/
def State.becomeReady (s : State) (i : Slot) (fp : Fingerprint) (cap : Lba) : State :=
  s.setBay i { s.bay i with state := .ready, recorded := some fp, presented := none,
                            capacity := some cap }

/-- R118: the comparison of a good untagged answer with the recorded fingerprint. -/
def State.compareIdentity (s : State) (i : Slot) (fp : Fingerprint) (cap : Lba) : State :=
  match (s.bay i).recorded with
  | none =>
    if s.owned i then (s.becomeReady i fp cap).queueUpdate i false else s.becomeReady i fp cap
  | some r =>
    if r = fp then s.becomeReady i fp cap
    else if s.owned i then s.becomeSuspect i fp cap
    else s.becomeReady i fp cap

/-- R19: a HANDING slot back in READY with no drain deadline and commands of its owner left gets a new
drain deadline. -/
def State.rearmHanding (s : State) (i : Slot) : State :=
  let r := s.slot i
  match r.phase, r.owner, r.drainDeadline with
  | .handing, some x, none =>
    let n := (s.engine i).outstanding x
    if 0 < n then
      s.setSlot i { r with drainDeadline := some (later s.now (drainLimit s.timing n)) }
    else s
  | _, _, _ => s

/-- A good untagged answer ends bring-up or the link reset (R117, R121). -/
def State.identityTaken (s : State) (i : Slot) (fp : Fingerprint) (cap : Lba) : State :=
  let wasReset := decide ((s.bay i).state = .resetting)
  let s := s.setBay i { s.bay i with bringupDeadline := none, resetDeadline := none, resetCause := none,
                                     awaits := .nothing }
  let s := s.compareIdentity i fp cap
  if wasReset && decide ((s.bay i).state = .ready) then s.rearmHanding i else s

/-- R119: what the Bay Controller does with a good tagged answer, in READY or SUSPECT, beside the
withdrawal's effect on a HANDING slot. -/
def State.taggedIdentity (s : State) (i : Slot) (fp : Fingerprint) (cap : Lba) : State :=
  let b := s.bay i
  if !s.resettable i then s
  else if b.recorded = some fp then
    if b.state = .suspect then s.setBay i { b with state := .ready, presented := none } else s
  else if s.owned i then
    if b.state = .suspect then s.setBay i { b with presented := some fp, capacity := some cap }
    else s.becomeSuspect i fp cap
  else s.becomeReady i fp cap

/-! ### Presence (R114 to R116) -/

/-- PRESENCE_CHANGE (R114). A pin changes whether or not the controller runs. -/
def changePresence (i : Slot) (level : Bool) (s : State) : State :=
  let b := s.bay i
  if b.input = level then s
  else if s.running then
    s.setBay i { b with input := level,
                        debounce := if level = b.present then none else some (later s.now 2000) }
  else s.setBay i { b with input := level }

def execPresenceChange (bay : Slot) (level : Bool) (s : State) : Host.Outcome State Fault Refusal :=
  .next (changePresence bay level s)

/-- The debounce count of a bay completes at this tick with the input at the level. -/
def State.debounced (s : State) (i : Slot) (level : Bool) : Bool :=
  decide ((s.bay i).debounce = some s.now) && decide ((s.bay i).input = level)

/-- INSERTION (R115): the debounce of a present level completes at an EMPTY bay. -/
def insert (i : Slot) (s : State) : State :=
  let b := { s.bay i with present := true, debounce := none }
  (s.setBay i (b.bringUp s.now)).raiseBoth (some i) .driveInserted

def execInsertion (bay : Slot) (s : State) : Host.Outcome State Fault Refusal :=
  .next (whenRunning (whenTrue (fun s => s.debounced bay true && decide ((s.bay bay).state = .empty))
    (insert bay)) s)

/-- R116 steps 1 to 5: the bay's part of a removal. Frames produced for the drive link and not yet carried
away stay in `driveOut`, here and where the link is lost, reset or held: the model's choice (log 34). -/
def State.emptyBay (s : State) (i : Slot) : State :=
  let before := (s.bay i).state
  let s := (s.endTagsByRemoval i).withdraw i .driveRemoved
  let s := s.setEngine i { s.engine i with probeRequest := false }
  let s := s.setBay i { (s.bay i).forget with
    state := .empty, present := false, debounce := none, bringupDeadline := none, resetDeadline := none
    resetCause := none, awaits := .nothing, linkHeld := false }
  s.raiseBoth (some i) (.driveRemoved before)

/-- REMOVAL (R116): then a HANDING or DRAINING slot commits (R20, R93) and a probe ends ABSENT (R134). -/
def remove (i : Slot) (s : State) : State :=
  let probing := s.probing i
  let s := drainCheck i (handingCheck i (s.emptyBay i))
  if probing then settleProbe i .absent none none s else s

def execRemoval (bay : Slot) (s : State) : Host.Outcome State Fault Refusal :=
  .next (whenRunning (whenTrue (fun s => s.debounced bay false && decide ((s.bay bay).state ≠ .empty))
    (remove bay)) s)

/-! ### The drive link (R113, R117, R118, R121 to R123) -/

/-- DRIVE_READY (R117, R121): ready after training is answered with an untagged IDENTIFY. A ready that
is not awaited is ignored (log 18). -/
def driveReady (i : Slot) (s : State) : State :=
  if (s.bay i).awaits = .readySignal then
    (s.setBay i { s.bay i with awaits := .identity }).toDrive i [.identifyUntagged]
  else s

def execDriveReady (bay : Slot) (s : State) : Host.Outcome State Fault Refusal :=
  .next (whenRunning (driveReady bay) s)

/-- R113: an answer is good when its status is 0 and its capacity is at least 1. -/
def goodAnswer (status : BitVec 16) (cap : Lba) : Bool := decide (status = 0) && decide (cap ≠ 0)

/-- IDENTIFY_ANSWER (R118): a good answer is compared; any other is refused and asked for again (R113).
An answer with no IDENTIFY outstanding is ignored (R117). -/
def identifyAnswer (i : Slot) (status : BitVec 16) (fp : Fingerprint) (cap : Lba) (s : State) : State :=
  if (s.bay i).awaits = .identity then
    if goodAnswer status cap then
      (drainCheck i (handingCheck i (s.identityTaken i fp cap))).arbiter i
    else
      (s.setBay i { s.bay i with identifyRetries := satInc (s.bay i).identifyRetries }).toDrive i
        [.identifyUntagged]
  else s

def execIdentifyAnswer (bay : Slot) (status : BitVec 16) (fp : Fingerprint) (cap : Lba) (s : State) :
    Host.Outcome State Fault Refusal :=
  .next (whenRunning (identifyAnswer bay status fp cap) s)

/-- DRIVE_LINK_LOSS (R123), by the bay state. -/
def driveLinkLoss (i : Slot) (s : State) : State :=
  let b := s.bay i
  match b.state with
  | .ready | .suspect => linkReset i .linkLoss (s.setBay i { b with linkLosses := satInc b.linkLosses })
  | .bringup => s.setBay i { b with linkLosses := satInc b.linkLosses, awaits := .readySignal }
  | .resetting => s.setBay i { b with awaits := .readySignal }
  | .held | .failed | .empty => s

def execDriveLinkLoss (bay : Slot) (s : State) : Host.Outcome State Fault Refusal :=
  .next (whenRunning (driveLinkLoss bay) s)

/-- The bay becomes FAILED with the link reset signal held (R117, R122). -/
def Bay.fail (b : Bay) : Bay :=
  { b with state := .failed, bringupDeadline := none, resetDeadline := none, resetCause := none,
           awaits := .nothing, linkHeld := true }

/-- BRINGUP_DEADLINE (R117). -/
def bringupFails (i : Slot) (s : State) : State :=
  let b := s.bay i
  (s.setBay i { b.fail with bringupsFailed := satInc b.bringupsFailed }).raiseBoth (some i)
    (.slotFaulted .bringupLimit)

def execBringupDeadline (bay : Slot) (s : State) : Host.Outcome State Fault Refusal :=
  .next (whenRunning (whenTrue (fun s => decide ((s.bay bay).state = .bringup) &&
    decide ((s.bay bay).bringupDeadline = some s.now)) (bringupFails bay)) s)

/-- RESET_DEADLINE (R122): then the slot commits (R19, R93). -/
def resetFails (i : Slot) (s : State) : State :=
  let s := (s.setBay i (s.bay i).fail).withdraw i .slotFaulted
  let s := (s.setBay i { s.bay i with resetsFailed := satInc (s.bay i).resetsFailed }).raiseBoth (some i)
    (.slotFaulted .resetLimit)
  drainCheck i (handingCheck i s)

def execResetDeadline (bay : Slot) (s : State) : Host.Outcome State Fault Refusal :=
  .next (whenRunning (whenTrue (fun s => decide ((s.bay bay).state = .resetting) &&
    decide ((s.bay bay).resetDeadline = some s.now)) (resetFails bay)) s)

/-! ### Drain deadlines (R19, R92) -/

/-- DRAIN_DEADLINE (R92): in READY or SUSPECT the link reset starts and DRAIN_RESET is raised to the
claimant with the orphans unresolved until then. -/
def drainExpires (i : Slot) (s : State) : State :=
  match (s.slot i).batch, (s.slot i).drainDeadline with
  | some n, some d =>
    if s.resettable i then
      (linkReset i .drainLimit s).raise n (some i) (.drainReset (s.engine i).orphans d)
    else s
  | _, _ => s

def execDrainDeadline (slot : Slot) (s : State) : Host.Outcome State Fault Refusal :=
  .next (whenRunning (whenTrue (fun s => decide ((s.slot slot).phase = .draining) &&
    decide ((s.slot slot).drainDeadline = some s.now)) (drainExpires slot)) s)

/-- HANDING_DRAIN_DEADLINE (R19): the deadline is removed and a link reset is asked for. -/
def handingExpires (i : Slot) (s : State) : State :=
  linkReset i .drainLimit (s.setSlot i { s.slot i with drainDeadline := none })

def execHandingDrainDeadline (slot : Slot) (s : State) : Host.Outcome State Fault Refusal :=
  .next (whenRunning (whenTrue (fun s => decide ((s.slot slot).phase = .handing) &&
    decide ((s.slot slot).drainDeadline = some s.now)) (handingExpires slot)) s)

/-! ### Completions and data from the drive (R58 to R60, R62) -/

/-- R58: an ACTIVE entry completes to its node. -/
def completeActive (i : Slot) (tag : DriveTag) (c : Command) (status : BitVec 16) (s : State) : State :=
  let s := s.sendCpl c.node i c.tag (if status = 0 then .good else .driveError) status
  (handingCheck i (s.setEngine i ((s.engine i).free tag))).arbiter i

/-- R59: an ORPHANED entry completes into the takeover report. -/
def completeOrphan (i : Slot) (tag : DriveTag) (c : Command) (status : BitVec 16) (s : State) : State :=
  let s := s.fillReport i c.tag (if status = 0 then .doneGood else .doneError status)
  (drainCheck i (s.setEngine i ((s.engine i).free tag))).arbiter i

/-- R119, R135: the outcome of a good answer, by the bay and the slot as they stand when it is taken. -/
def answerOutcome (recorded : Option Fingerprint) (owned : Bool) (fp : Fingerprint) : AuditOutcome :=
  if recorded = some fp then .matched else if owned then .swapped else .newDrive

/-- R59, R135: the answer to a probe that is expected. -/
def answerProbe (i : Slot) (status : BitVec 16) (fp : Fingerprint) (cap : Lba) (s : State) : State :=
  if goodAnswer status cap then
    let o := answerOutcome (s.bay i).recorded (s.owned i) fp
    settleProbe i o (some fp) none (handingCheck i (s.taggedIdentity i fp cap))
  else
    settleProbe i .probeFailed (if status = 0 then some fp else none) (some status) s

/-- R59: a PROBE entry completes; the answer is handed on only if it is expected. That its tag is FREE before
the answer reaches the Audit Unit, so that a next probe of the bay at this event may take it, is the model's
choice (log 12): R59 names the hand-on, the freeing and the arbiter without saying in order. -/
def completeProbe (i : Slot) (tag : DriveTag) (expected : Bool) (status : BitVec 16) (fp : Fingerprint)
    (cap : Lba) (s : State) : State :=
  let s := s.setEngine i ((s.engine i).free tag)
  let s := if expected && s.probing i then answerProbe i status fp cap s else s
  s.arbiter i

/-- R60: a completion for a FREE tag or a tag above 31. -/
def spuriousCompletion (i : Slot) (s : State) : State :=
  s.setEngine i { s.engine i with spurious := satInc (s.engine i).spurious }

/-- DRIVE_COMPLETION, by the role of the tag's entry. -/
def driveCompletion (i : Slot) (tag : Nat) (status : BitVec 16) (fp : Fingerprint) (cap : Lba)
    (s : State) : State :=
  match (s.engine i).entry tag with
  | some ⟨k, .active c _⟩ => completeActive i k c status s
  | some ⟨k, .orphaned c _⟩ => completeOrphan i k c status s
  | some ⟨k, .probe e⟩ => completeProbe i k e status fp cap s
  | none => spuriousCompletion i s

def execDriveCompletion (bay : Slot) (tag : Nat) (status : BitVec 16) (fp : Fingerprint) (cap : Lba)
    (s : State) : Host.Outcome State Fault Refusal :=
  .next (whenRunning (driveCompletion bay tag status fp cap) s)

/-- DRIVE_DATA_FRAME (R62): relayed for an ACTIVE READ or WRITE, else dropped and counted. -/
def driveData (i : Slot) (tag : Nat) (payload : List Byte) (s : State) : State :=
  let drop := s.setEngine i { s.engine i with droppedFromDrive := satInc (s.engine i).droppedFromDrive }
  match (s.engine i).entry tag with
  | some ⟨_, .active c _⟩ =>
    if c.kind = .read ∨ c.kind = .write then s.sendData c.node i c.tag payload else drop
  | _ => drop

def execDriveDataFrame (bay : Slot) (tag : Nat) (payload : List Byte) (s : State) :
    Host.Outcome State Fault Refusal :=
  .next (whenRunning (driveData bay tag payload) s)

/-- PROBE_DEADLINE (R134): the outcome is NO_RESPONSE and the PROBE entry is no longer expected. -/
def probeExpires (s : State) : State :=
  match s.sweep.current, s.sweep.probe with
  | some i, some (.dispatched _ d) =>
    if s.sweep.state = .probing ∧ d = s.now then settleProbe i .noResponse none none s.releaseProbe else s
  | _, _ => s

def execProbeDeadline (s : State) : Host.Outcome State Fault Refusal :=
  .next (whenRunning probeExpires s)

/-! ### Node requests on a bay (R124 to R128) -/

/-- The requester owns the slot. -/
def State.ownedBy (s : State) (n : Node) (i : Slot) : Bool := decide ((s.slot i).owner = some n)

/-- R125 item 4: the bay holds a waiting command, an ACTIVE entry, a probe request or an expected
probe. -/
def Engine.busy (e : Engine) : Bool :=
  !e.waiting.isEmpty || e.probeRequest ||
    e.tags.any (fun t => match t.role with
      | .active _ _ => true
      | .probe expected => expected
      | .orphaned _ _ => false)

/-- R125: the order in which a HOLD is judged. -/
def judgeHold (n : Node) (i : Slot) (s : State) : Result :=
  let r := s.slot i
  if !s.live n then .noLease
  else if r.phase = .claimed ∨ r.phase = .draining ∨ r.phase = .handing ∨ r.phase = .committing then
    .wrongState
  else if r.phase = .owned ∧ r.owner ≠ some n then .notOwner
  else if !s.resettable i then .busy
  else if (s.engine i).busy then .busy
  else .done

/-- R125: a taken HOLD. -/
def State.holdBay (s : State) (i : Slot) : State :=
  let e := s.engine i
  (s.setEngine i { e with tags := e.tags.filter (fun t => !t.isProbe) }).setBay i
    { (s.bay i).forget with state := .held, linkHeld := true }

def execHold (n : Node) (id : BitVec 16) (slot : Slot) (s : State) : Host.Outcome State Fault Refusal :=
  .next (whenUp n (fun s =>
    let r := judgeHold n slot s
    (if r = .done then s.holdBay slot else s).reply n id 0x24 r []) s)

/-- R126 item 1: the authority UNHOLD and CLEAR_FAULT share. -/
def State.mayRelease (s : State) (n : Node) (i : Slot) : Bool :=
  match (s.slot i).owner with
  | none => true
  | some x => decide (x = n) || s.gone x

/-- R126: UNHOLD asks for a HELD bay and CLEAR_FAULT for a FAILED one. -/
def judgeBringUp (want : BayState) (n : Node) (i : Slot) (s : State) : Result :=
  if !s.live n then .noLease
  else if !s.mayRelease n i then .notOwner
  else if (s.bay i).state ≠ want then .wrongState
  else .done

/-- R126: UNHOLD and CLEAR_FAULT, each with its bay state and code. -/
def bringUpRequest (want : BayState) (code : Byte) (n : Node) (id : BitVec 16) (i : Slot) (s : State) :
    State :=
  let r := judgeBringUp want n i s
  (if r = .done then s.setBay i ((s.bay i).bringUp s.now) else s).reply n id code r []

def execUnhold (n : Node) (id : BitVec 16) (slot : Slot) (s : State) : Host.Outcome State Fault Refusal :=
  .next (whenUp n (bringUpRequest .held 0x25 n id slot) s)

def execClearFault (n : Node) (id : BitVec 16) (slot : Slot) (s : State) :
    Host.Outcome State Fault Refusal :=
  .next (whenUp n (bringUpRequest .failed 0x27 n id slot) s)

/-- R127: the order in which an ADOPT is judged. -/
def judgeAdopt (n : Node) (i : Slot) (s : State) : Result :=
  let r := s.slot i
  if !s.live n then .noLease
  else if r.owner ≠ some n then .notOwner
  else if r.phase ≠ .owned ∧ r.phase ≠ .handing then .wrongState
  else if (s.bay i).state ≠ .suspect then .wrongState
  else .done

/-- R127: a taken ADOPT, but for its reply. -/
def State.adoptDrive (s : State) (i : Slot) : State :=
  let b := s.bay i
  let s := s.setBay i { b with state := .ready, recorded := b.presented, presented := none }
  (s.queueUpdate i false).arbiter i

def execAdopt (n : Node) (id : BitVec 16) (slot : Slot) (s : State) : Host.Outcome State Fault Refusal :=
  .next (whenUp n (fun s =>
    let r := judgeAdopt n slot s
    if r = .done then
      let s := s.adoptDrive slot
      s.reply n id 0x26 .done (u64 (((s.bay slot).recorded.map BitVec.toNat).getD 0))
    else s.reply n id 0x26 r []) s)

/-- R128: the order in which a RESET_DRIVE is judged. -/
def judgeResetDrive (n : Node) (i : Slot) (s : State) : Result :=
  let r := s.slot i
  if !s.live n then .noLease
  else if r.owner ≠ some n ∧ ¬(r.phase = .draining ∧ r.batch = some n) then .notOwner
  else if r.owner = some n ∧ r.phase ≠ .owned ∧ r.phase ≠ .handing then .wrongState
  else if (s.bay i).state = .resetting then .busy
  else if !s.resettable i then .wrongState
  else .done

/-- RESET_DRIVE (R128). The CPLs that the reset produces for the requester go out before the RSP: the
model's choice (log 12). -/
def execResetDrive (n : Node) (id : BitVec 16) (slot : Slot) (s : State) :
    Host.Outcome State Fault Refusal :=
  .next (whenUp n (fun s =>
    let r := judgeResetDrive n slot s
    if r = .done then
      let deadline := later s.now (s.timing.resetLimit * 10)
      (linkReset slot .resetDrive s).reply n id 0x29 .done (tickItem deadline)
    else s.reply n id 0x29 r []) s)

end Sys2Proof.Machine
end

