-- ==== Sys2Proof/Machine/Leases.lean ====
section
/-! DEFINITION. The Lease Monitor and the Timebase: HEARTBEAT, LEAVE, lapse and expiry, the tick and
its source, the end of the grace (R24 to R42), with what a lease event does to batches and sweeps
(R84 to R87, R139). -/

namespace Sys2Proof.Machine

/-! ### What a lease event does to a batch -/

/-- R84: a GATHERED member whose old owner is the node leaves the batch and its slot returns. -/
def State.dropReturned (s : State) (claimant x : Node) : State :=
  (s.batch claimant).members.foldl (fun s m =>
    if m.status = .gathered ∧ m.oldOwner = some x then
      (s.returnSlot claimant m.slot m.prior).setMember claimant m.slot
        (fun k => { k with status := .droppedOwnerReturned })
    else s) s

/-- R84, R87: the Takeover Unit is told that the node's lease is live. -/
def ownerReturned (x : Node) (s : State) : State :=
  let n := x.partner
  if (s.batch n).state = .gathering then
    let s := s.dropReturned n x
    if (s.batch n).members.all (fun m => m.status.isFinal) then endBatch n .noneTaken s else s
  else s

/-- R85 item 1: every GATHERED member becomes DROPPED_CANCELLED and its slot returns. -/
def State.cancelMembers (s : State) (n : Node) : State :=
  (s.batch n).members.foldl (fun s m =>
    if m.status = .gathered then
      (s.returnSlot n m.slot m.prior).setMember n m.slot (fun k => { k with status := .droppedCancelled })
    else s) s

/-- R85, R86: a gathering batch is cancelled with the outcome. -/
def cancelBatch (n : Node) (outcome : BatchOutcome) (s : State) : State :=
  endBatch n outcome (s.cancelMembers n)

/-- R86 item 1: the claimant's lease is lost. -/
def claimantLost (n : Node) (s : State) : State :=
  if (s.batch n).state = .gathering then cancelBatch n .claimantLost s else s

/-! ### Heartbeat (R26 to R31) -/

/-- R27 to R31: the lease a heartbeat makes. -/
def Lease.beat (l : Lease) (now : Tick) (source : Source) (period miss : Nat) (fast : Bool) : Lease :=
  let g := gradeIndex period
  let m := missOf miss
  let span := spanTicks (gradeMs g) m (tolerance source)
  { l with
    state := .live, absentCause := none, fastExpiry := fast
    grant := some { grade := g, miss := m, span := span, lastHeartbeat := now }
    expiry := some (later now span)
    lapse := if 2 ≤ m then some (later now (gradeMs g * 10 + 20)) else none
    basis := some source
    lost := 0, leftGone := false }

/-- A lease state with its absent cause if ABSENT, as reply data carry it (R31). -/
def leaseStateItem (l : Lease) : List Byte :=
  u8 (leaseCode l.state) ++
    optItem 1 (fun c => u8 (absentCode c)) (if l.state = .absent then l.absentCause else none)

/-- The reply data of R31. -/
def heartbeatReply (before after partner : Lease) (period miss : Nat) (source : Source) (grace : Bool)
    (now : Tick) : List Byte :=
  let g := gradeIndex period
  let m := missOf miss
  u8 g.val ++ u16 (gradeMs g) ++ u8 m ++ u32 (spanTicks (gradeMs g) m (tolerance source))
    ++ flag (gradeClamped period) ++ flag (gradeRounded period) ++ flag (missClamped miss)
    ++ u32 ((after.expiry.map BitVec.toNat).getD 0) ++ optItem 4 tickItem after.lapse
    ++ u8 (sourceCode source) ++ leaseStateItem before ++ leaseStateItem partner
    ++ u8 (slotsIn before.lost).length ++ u8 before.lost.toNat ++ flag grace ++ tickItem now

/-- PARTNER_RETURNED is raised if the previous state was EXPIRED or ABSENT (R31). -/
def State.tellReturned (s : State) (n : Node) (before after : Lease) : State :=
  match after.grant, after.expiry with
  | some g, some e =>
    if before.state = .expired ∨ before.state = .absent then
      s.raise n.partner none (.partnerReturned before.state
        (if before.state = .absent then before.absentCause else none) g.grade g.miss e)
    else s
  | _, _ => s

/-- HEARTBEAT with a fast-expiry value that is set or clear and a period that is not 0. -/
def heartbeat (n : Node) (id : BitVec 16) (period miss : Nat) (fast : Bool) (s : State) : State :=
  let before := s.lease n
  let after := before.beat s.now s.time.source period miss fast
  let data := heartbeatReply before after (s.lease n.partner) period miss s.time.source s.time.grace s.now
  ownerReturned n (((s.setLease n after).reply n id 0x10 .done data).tellReturned n before after)

def execHeartbeat (n : Node) (id : BitVec 16) (period : BitVec 16) (miss fast : Byte) (s : State) :
    Host.Outcome State Fault Refusal :=
  .next (whenUp n (fun s =>
    match switchOf fast with
    | some f =>
      if period = 0 then s.reply n id 0x10 .badRequest []
      else heartbeat n id period.toNat miss.toNat f s
    | none => s.reply n id 0x10 .badRequest []) s)

/-! ### Lapse, expiry and LEAVE (R32 to R36) -/

/-- LAPSE_DEADLINE (R32). -/
def lapse (n : Node) (s : State) : State :=
  let l := s.lease n
  match l.grant, l.expiry with
  | some g, some e =>
    (s.setLease n { l with state := .lapsing, lapse := none }).raise n.partner none
      (.partnerLapsing e g.grade g.miss)
  | _, _ => s.setLease n { l with state := .lapsing, lapse := none }

def execLapseDeadline (n : Node) (s : State) : Host.Outcome State Fault Refusal :=
  .next (whenRunning (whenTrue (fun s => decide ((s.lease n).state = .live) &&
    decide ((s.lease n).lapse = some s.now)) (lapse n)) s)

/-- The lease without its deadlines and their basis (R33, R36). -/
def Lease.stop (l : Lease) (st : LeaseState) : Lease :=
  { l with state := st, lapse := none, expiry := none, basis := none }

/-- R33: the effects of an expiry, in order. -/
def expire (n : Node) (s : State) : State :=
  let l := s.lease n
  let s := (s.setLease n (l.stop .expired)).raise n.partner none
    (.partnerExpired .expired (l.grant.map Grant.lastHeartbeat))
  endSweepOf n .leaseLost (trigger n (claimantLost n s))

def execExpiryDeadline (n : Node) (s : State) : Host.Outcome State Fault Refusal :=
  .next (whenRunning (whenTrue (fun s => s.live n && decide ((s.lease n).expiry = some s.now))
    (expire n)) s)

/-- R36 item 1: LEAVE of a live lease. -/
def leaveLive (n : Node) (s : State) : State :=
  let l := s.lease n
  let s := (s.setLease n { l.stop .absent with absentCause := some .left }).raise n.partner none
    (.partnerExpired .left (l.grant.map Grant.lastHeartbeat))
  let s := endSweepOf n .leaseLost (claimantLost n s)
  if s.time.grace then s else trigger n s

/-- R36 items 2 and 3: LEAVE of a lease that is not live. From EXPIRED the node stays gone, as
`State.staysGone` reads it (log 33). -/
def Lease.leaveEnded (l : Lease) : Lease :=
  { l with state := .absent, absentCause := some .left
           leftGone := decide (l.state = .expired) || l.leftGone }

/-- R36: the effect of a LEAVE, by the state of the lease. -/
def leave (n : Node) (s : State) : State :=
  if s.live n then leaveLive n s
  else s.setLease n (s.lease n).leaveEnded

def execLeave (n : Node) (id : BitVec 16) (s : State) : Host.Outcome State Fault Refusal :=
  .next (whenUp n (fun s =>
    leave n (s.reply n id 0x11 .done (u8 (leaseCode (s.lease n).state)))) s)

/-! ### The Timebase (R37 to R40) -/

/-- R38: the measurement after one more tick of the fallback oscillator. An interval of more than 10 µs
between edges of the reference, ended or open within this tick, restarts it. -/
def measureNext (gap : Bool) (measured : Nat) : Nat := if gap then 0 else min 10000 (measured + 1)

/-- R37: the counter advances. -/
def Timebase.advance (t : Timebase) : Timebase := { t with tick := t.tick + 1 }

/-- R38: while the source is FALLBACK the measurement runs at each tick. Whether an interval above 10 µs
fell within the tick is a free value (log 16). -/
def State.measure (s : State) : State :=
  match s.time.source with
  | .fallback =>
    { s with
      time := { s.time with measured := measureNext (Config.referenceGap s.freeCount) s.time.measured }
      freeCount := s.freeCount + 1 }
  | .reference => s

/-- TICK (R37, R38). A deadline is taken by its own command at the tick it names (log 5). -/
def execTick (s : State) : Host.Outcome State Fault Refusal :=
  .next (whenRunning (fun s => (s.setTime s.time.advance).measure) s)

/-- R39 item 2: a running lease of REFERENCE basis is stretched. -/
def Lease.stretch (l : Lease) (now : Tick) : Lease :=
  { l with lapse := l.lapse.map (stretched now), expiry := l.expiry.map (stretched now),
           basis := some .fallback }

/-- R39 item 2: the lease is LIVE or LAPSING with basis REFERENCE. -/
def State.stretchable (s : State) (n : Node) : Bool := s.live n && decide ((s.lease n).basis = some .reference)

/-- The lease of one node stretched if R39 says so. -/
def State.stretchLease (s : State) (n : Node) : State :=
  if s.stretchable n then s.setLease n ((s.lease n).stretch s.now) else s

/-- REFERENCE_LOST (R39). -/
def referenceLost (s : State) : State :=
  let count := ([Node.a, Node.b].filter s.stretchable).length
  let s := s.setTime { s.time with source := .fallback, measured := 0 }
  ((s.stretchLease .a).stretchLease .b).raiseBoth none (.timebaseLost count)

def execReferenceLost (s : State) : Host.Outcome State Fault Refusal :=
  .next (whenRunning (whenTrue (fun s => decide (s.time.source = .reference)) referenceLost) s)

/-- The measurement of R38 completes: 10,000 consecutive ticks of the fallback oscillator without an
interval above 10 µs (log 16). -/
def State.measurable (s : State) : Bool :=
  decide (s.time.source = .fallback) && decide (s.time.measured = 10000)

/-- REFERENCE_QUALIFIED (R38): the start-up qualification raises no notice. -/
def execReferenceQualified (s : State) : Host.Outcome State Fault Refusal :=
  .next (whenRunning (whenTrue (fun s => s.measurable && !s.time.qualified)
    (fun s => s.setTime { s.time with source := .reference, qualified := true })) s)

/-- REFERENCE_REGAINED (R40): the source becomes REFERENCE after a loss and both nodes are told. -/
def execReferenceRegained (s : State) : Host.Outcome State Fault Refusal :=
  .next (whenRunning (whenTrue (fun s => s.measurable && s.time.qualified)
    (fun s => (s.setTime { s.time with source := .reference }).raiseBoth none .timebaseRegained)) s)

/-! ### The end of the grace (R42) -/

/-- R42 item 2: a node ABSENT and NEVER_SEEN is reported to its partner. -/
def State.tellNeverSeen (s : State) (n : Node) : State :=
  if (s.lease n).state = .absent ∧ (s.lease n).absentCause = some .neverSeen then
    s.raise n.partner none (.partnerExpired .neverSeen none)
  else s

/-- R42 item 3: the trigger runs for an ABSENT node. -/
def triggerIfAbsent (n : Node) (s : State) : State :=
  if (s.lease n).state = .absent then trigger n s else s

/-- GRACE_END (R42). -/
def graceEnd (s : State) : State :=
  let s := s.setTime { s.time with grace := false }
  let s := s.raiseBoth none (.graceEnded (s.lease .a).state (s.lease .b).state)
  triggerIfAbsent .b (triggerIfAbsent .a ((s.tellNeverSeen .a).tellNeverSeen .b))

def execGraceEnd (s : State) : Host.Outcome State Fault Refusal :=
  .next (whenRunning (whenTrue (fun s => s.time.grace && decide (s.now = 300000)) graceEnd) s)

end Sys2Proof.Machine
end

