-- ==== Sys2Proof/Machine/Takeover.lean ====
section
/-! DEFINITION. The requests of the Takeover Unit and the Report Store, and the gather deadline (R80
to R83, R85, R88, R97, R109, R110). -/

namespace Sys2Proof.Machine

/-! ### TAKE (R81 to R83) -/

/-- R82: the result of one slot. `joined` here is item 8 or item 1; `joinsNew` tells them apart. Item 6
holds of every ABSENT owner, one that sent LEAVE in EXPIRED too (log 33). -/
def judgeTake (n : Node) (i : Slot) (s : State) : Result :=
  let r := s.slot i
  match r.phase with
  | .claimed => if r.batch = some n then .joined else .contested
  | .draining => if r.batch = some n then .wrongState else .contested
  | .handing | .committing => .wrongState
  | .owned =>
    match r.owner with
    | none => .wrongState
    | some x =>
      if x = n then .alreadyOwner
      else if s.live x then .ownerLive
      else if (s.lease x).state = .absent ∧ s.time.grace then .ownerGrace
      else .joined
  | .unowned => if r.storeLost ∧ s.time.grace then .ownerGrace else .joined

/-- The slot joins the batch now: its result is a new JOINED. -/
def joinsNew (n : Node) (i : Slot) (s : State) : Bool :=
  decide (judgeTake n i s = .joined) && decide ((s.slot i).phase ≠ .claimed)

/-- R81: a join of a TAKE; the first one creates the batch if it is NONE or ENDED. -/
def State.takeJoin (s : State) (n : Node) (i : Slot) : State :=
  (if (s.batch n).state = .gathering then s else s.createBatch n .request).join n i

/-- R81: the slots of the mask are judged in ascending order, each new JOINED joining at that point. -/
def takeSlots (n : Node) : List Slot → State → State × List (Slot × Result)
  | [], s => (s, [])
  | i :: is, s =>
    let r := takeSlots n is (if joinsNew n i s then s.takeJoin n i else s)
    (r.1, (i, judgeTake n i s) :: r.2)

/-- One element of a per-slot list (12.2). -/
def slotResultItem (x : Slot × Result) : List Byte := slotItem x.1 ++ u8 (resultCode x.2)

/-- R83: the reply data of a TAKE. -/
def takeReply (b : Batch) (rs : List (Slot × Result)) : List Byte :=
  u8 b.number.toNat ++ u8 (batchStateCode b.state) ++ optItem 4 tickItem b.gatherDeadline
    ++ listItem slotResultItem rs

/-- TAKE with a mask that is not 0, from a live requester whose batch is not RUNNING. -/
def take (n : Node) (id : BitVec 16) (mask : SlotMask) (s : State) : State :=
  let r := takeSlots n (slotsIn mask) s
  let anyNew := decide ((slotsIn mask).any (fun i => joinsNew n i s))
  let s := if anyNew then gather n r.1 else r.1
  s.reply n id 0x30 (if r.2.any (fun x => decide (x.2 = .joined)) then .accepted else .refused)
    (takeReply (s.batch n) r.2)

def execTake (n : Node) (id : BitVec 16) (mask : SlotMask) (s : State) :
    Host.Outcome State Fault Refusal :=
  .next (whenUp n (fun s =>
    if mask = 0 then s.reply n id 0x30 .badRequest []
    else if !s.live n then s.reply n id 0x30 .noLease []
    else if (s.batch n).state = .running then s.reply n id 0x30 .busy []
    else take n id mask s) s)

/-! ### CANCEL_TAKE, SET_TIMING, BATCH_STATUS, GATHER_DEADLINE -/

/-- CANCEL_TAKE (R85), judged on the batch state alone. -/
def cancelTake (n : Node) (id : BitVec 16) (s : State) : State :=
  let b := s.batch n
  match b.state with
  | .gathering =>
    (cancelBatch n .cancelled s).reply n id 0x31 .done
      (u8 b.number.toNat ++ u8 (countStatus .gathered b.members))
  | .running => s.reply n id 0x31 .ignoredRunning []
  | _ => s.reply n id 0x31 .wrongState []

def execCancelTake (n : Node) (id : BitVec 16) (s : State) : Host.Outcome State Fault Refusal :=
  .next (whenUp n (cancelTake n id) s)

/-- The five timing settings as reply data. -/
def timingItems (t : Timing) : List Byte :=
  u32 t.gatherWindow ++ u32 t.drainBase ++ u32 t.drainPerCommand ++ u32 t.drainCap ++ u32 t.resetLimit

/-- SET_TIMING (R80) from a live requester. -/
def setTiming (n : Node) (id : BitVec 16) (w b p c l : BitVec 32) (s : State) : State :=
  let t := timingOf w b p c l
  { s with timing := t }.reply n id 0x33 .done
    (timingItems t ++ flag (decide (t.gatherWindow ≠ w.toNat)) ++ flag (decide (t.drainBase ≠ b.toNat))
      ++ flag (decide (t.drainPerCommand ≠ p.toNat)) ++ flag (decide (t.drainCap ≠ c.toNat))
      ++ flag (decide (t.resetLimit ≠ l.toNat)))

def execSetTiming (n : Node) (id : BitVec 16) (w b p c l : BitVec 32) (s : State) :
    Host.Outcome State Fault Refusal :=
  .next (whenUp n (fun s =>
    if s.live n then setTiming n id w b p c l s else s.reply n id 0x33 .noLease []) s)

/-- R97 item 2: one member of a BATCH_STATUS reply. -/
def memberItem (s : State) (m : Member) : List Byte :=
  let draining := decide (m.status = .draining)
  slotItem m.slot ++ u8 (priorCode m.prior) ++ u8 (ownerCode m.oldOwner) ++ u8 (memberStatusCode m.status)
    ++ optItem 1 u8 m.orphans
    ++ optItem 1 u8 (if draining then some (s.engine m.slot).orphans else none)
    ++ optItem 4 tickItem (if draining then (s.slot m.slot).drainDeadline else none)
    ++ optItem 2 genItem m.newGeneration ++ optItem 1 flag m.stored

/-- R97: the reply data of BATCH_STATUS for a node's batch. -/
def batchStatusReply (s : State) (x : Node) : List Byte :=
  let b := s.batch x
  u8 (batchStateCode b.state) ++ u8 b.number.toNat ++ optItem 1 (fun o => u8 (originCode o)) b.origin
    ++ optItem 4 tickItem b.gatherDeadline ++ optItem 4 tickItem b.startTick
    ++ optItem 4 tickItem b.endTick ++ optItem 1 (fun o => u8 (batchOutcomeCode o)) b.outcome
    ++ listItem (memberItem s) b.members
    ++ listItem slotItem (allSlots.filter (fun i => decide ((s.slot i).autoPending = some x)))
    ++ timingItems s.timing ++ tickItem s.now

def execBatchStatus (n : Node) (id : BitVec 16) (which : Byte) (s : State) :
    Host.Outcome State Fault Refusal :=
  .next (whenUp n (fun s =>
    match nodeOf which with
    | some x => s.reply n id 0x32 .done (batchStatusReply s x)
    | none => s.reply n id 0x32 .badRequest []) s)

def execGatherDeadline (n : Node) (s : State) : Host.Outcome State Fault Refusal :=
  .next (whenRunning (whenTrue (fun s => decide ((s.batch n).state = .gathering) &&
    decide ((s.batch n).gatherDeadline = some s.now)) (runBatch n)) s)

/-! ### Reports (R109, R110) -/

/-- R102: the header of a report as reply data. -/
def reportHeader (r : Report) : List Byte :=
  u8 (if r.closing.isSome then 1 else 0) ++ u8 (nodeCode r.oldOwner) ++ u8 (nodeCode r.newOwner)
    ++ genItem r.generationBefore ++ optItem 2 (fun c : Closing => genItem c.generationAfter) r.closing
    ++ optItem 1 (fun c : Closing => flag c.stored) r.closing ++ tickItem r.fenceTick
    ++ optItem 4 (fun c : Closing => tickItem c.commitTick) r.closing ++ flag r.resetUsed.isSome
    ++ optItem 1 (fun x => u8 (resetCauseCode x.1)) r.resetUsed
    ++ optItem 4 (fun x => tickItem x.2) r.resetUsed ++ flag r.replacedUnread ++ flag r.readToEnd
    ++ u8 r.entries.length ++ u8 r.pending

/-- R109: the new owner has read a FINAL report to its last entry. -/
def readsToEnd (r : Report) (n : Node) (first : Nat) : Bool :=
  decide (r.newOwner = n) && r.closing.isSome &&
    decide (first + ((r.entries.drop first).take 8).length = r.entries.length)

/-- R109: the reply data of READ_REPORT. The header shows read to end as this reading leaves it
(log 10). Where no entry is returned, the index of the first one is the requested index, the model's
choice (log 10). -/
def readReportReply (r : Report) (first : Nat) : List Byte :=
  let es := (r.entries.drop first).take 8
  reportHeader r ++ u8 first ++ listItem reportEntryRecord es
    ++ u8 (r.entries.length - (first + es.length))

/-- READ_REPORT (R109). -/
def readReport (n : Node) (id : BitVec 16) (i : Slot) (first : Nat) (s : State) : State :=
  match s.report i with
  | none => s.reply n id 0x34 .noReport []
  | some r =>
    let r := { r with readToEnd := r.readToEnd || readsToEnd r n first }
    (s.setReport i (some r)).reply n id 0x34 .done (readReportReply r first)

def execReadReport (n : Node) (id : BitVec 16) (slot : Slot) (first : Byte) (s : State) :
    Host.Outcome State Fault Refusal :=
  .next (whenUp n (fun s =>
    if 47 < first.toNat then s.reply n id 0x34 .badRequest []
    else readReport n id slot first.toNat s) s)

/-- R110: the order in which a DISCARD_REPORT is judged. -/
def judgeDiscard (n : Node) (i : Slot) (s : State) : Result :=
  match s.report i with
  | none => .noReport
  | some r =>
    if !s.live n then .noLease
    else if r.newOwner ≠ n then .notOwner
    else if r.closing.isNone then .wrongState
    else .done

def execDiscardReport (n : Node) (id : BitVec 16) (slot : Slot) (s : State) :
    Host.Outcome State Fault Refusal :=
  .next (whenUp n (fun s =>
    let r := judgeDiscard n slot s
    (if r = .done then s.setReport slot none else s).reply n id 0x35 r []) s)

end Sys2Proof.Machine
end

