-- ==== Sys2Proof/Machine/Slots.lean ====
section
/-! DEFINITION. The requests on a slot record: SET_SLOT, CLAIM_FREE, RELEASE, HANDOVER, SLOT_STATUS
(R6, R12 to R17, R23). -/

namespace Sys2Proof.Machine

/-! ### SET_SLOT (R6) -/

/-- R6: the order in which a SET_SLOT is judged. -/
def judgeSetSlot (n : Node) (i : Slot) (s : State) : Result :=
  let r := s.slot i
  if !s.live n then .noLease
  else if r.phase = .claimed ∨ r.phase = .draining ∨ r.phase = .committing then .wrongState
  else if (r.phase = .owned ∨ r.phase = .handing) ∧ r.owner ≠ some n then .notOwner
  else .done

/-- R6: a taken SET_SLOT. -/
def setSlotRequest (n : Node) (id : BitVec 16) (i : Slot) (p : Policy) (qa qb : Byte) (s : State) :
    State :=
  (s.setSlot i { s.slot i with policy := p, quota := ⟨quotaOf qa, quotaOf qb⟩ }).reply n id 0x28 .done
    (flag (quotaClamped qa) ++ flag (quotaClamped qb) ++ u8 (policyCode p) ++ u8 (quotaOf qa)
      ++ u8 (quotaOf qb))

def execSetSlot (n : Node) (id : BitVec 16) (slot : Slot) (policy quotaA quotaB : Byte) (s : State) :
    Host.Outcome State Fault Refusal :=
  .next (whenUp n (fun s =>
    match policyOf policy with
    | none => s.reply n id 0x28 .badRequest []
    | some p =>
      let r := judgeSetSlot n slot s
      if r = .done then setSlotRequest n id slot p quotaA quotaB s else s.reply n id 0x28 r []) s)

/-! ### CLAIM_FREE (R12, R13) -/

/-- R13: the slot is held toward the requester's partner by a takeover. -/
def contestedFor (n : Node) (r : SlotRec) : Bool :=
  match r.phase with
  | .claimed | .draining => decide (r.batch = some n.partner)
  | .committing => decide (r.path = some .takeover) && decide (r.target = some (some n.partner))
  | _ => false

/-- R12: the order in which a CLAIM_FREE is judged. -/
def judgeClaimFree (n : Node) (i : Slot) (s : State) : Result :=
  let r := s.slot i
  if !s.live n then .noLease
  else if r.phase ≠ .unowned then (if contestedFor n r then .contested else .wrongState)
  else if (s.bay i).state = .held then .wrongState
  else if r.storeLost && s.time.grace then .ownerGrace
  else .done

/-- The request joins the awaiting-reply set of its port (R155). -/
def State.awaitReply (s : State) (n : Node) (id : BitVec 16) (i : Slot) : State :=
  let p := s.port n
  s.setPort n { p with awaiting := p.awaiting ++ [{ id := id, slot := i }] }

/-- R12: a taken CLAIM_FREE starts the commit step; its reply follows the commit. -/
def claimFree (n : Node) (id : BitVec 16) (i : Slot) (s : State) : State :=
  startCommit i (some n) .claim (s.awaitReply n id i)

def execClaimFree (n : Node) (id : BitVec 16) (slot : Slot) (s : State) :
    Host.Outcome State Fault Refusal :=
  .next (whenUp n (fun s =>
    let r := judgeClaimFree n slot s
    if r = .done then claimFree n id slot s else s.reply n id 0x21 r []) s)

/-! ### RELEASE and HANDOVER (R15 to R17) -/

/-- R15: the result of one slot of the mask. -/
def judgeGive (n : Node) (i : Slot) (s : State) : Result :=
  let r := s.slot i
  if r.owner ≠ some n then .notOwner
  else if r.phase ≠ .owned then .wrongState
  else if (s.bay i).state = .held then .wrongState
  else .done

/-- R17: the slot enters the handover with `k` commands of its owner outstanding. -/
def enterHandover (i : Slot) (target : Owner) (path : CommitPath) (k : Nat) (s : State) : State :=
  if k = 0 then startCommit i target path s
  else s.setSlot i ((s.slot i).enter .handing (some target) none none
    (some (later s.now (drainLimit s.timing k))))

/-- One slot of a RELEASE or HANDOVER reply: its result and, for DONE, n and the drain deadline. -/
structure Given where
  slot : Slot
  result : Result
  count : Option Nat
  deadline : Option Tick
  deriving DecidableEq, Repr

def givenItem (x : Given) : List Byte :=
  slotItem x.slot ++ u8 (resultCode x.result) ++ optItem 1 u8 x.count ++ optItem 4 tickItem x.deadline

/-- R15, R16: the slots of the mask judged on their own, in slot order. -/
def giveSlots (n : Node) (target : Owner) (path : CommitPath) : List Slot → State → State × List Given
  | [], s => (s, [])
  | i :: is, s =>
    let r := judgeGive n i s
    if r = .done then
      let k := (s.engine i).outstanding n
      let rest := giveSlots n target path is (enterHandover i target path k s)
      (rest.1, { slot := i, result := r, count := some k,
                 deadline := if k = 0 then none else some (later s.now (drainLimit s.timing k)) } :: rest.2)
    else
      let rest := giveSlots n target path is s
      (rest.1, { slot := i, result := r, count := none, deadline := none } :: rest.2)

/-- RELEASE and HANDOVER of the slots of a mask, with the reply (R15, R16). -/
def give (n : Node) (id : BitVec 16) (code : Byte) (target : Owner) (path : CommitPath)
    (mask : SlotMask) (s : State) : State :=
  let r := giveSlots n target path (slotsIn mask) s
  r.1.reply n id code (if r.2.any (fun x => decide (x.result = .done)) then .done else .refused)
    (listItem givenItem r.2)

def execRelease (n : Node) (id : BitVec 16) (mask : SlotMask) (s : State) :
    Host.Outcome State Fault Refusal :=
  .next (whenUp n (fun s =>
    if mask = 0 then s.reply n id 0x22 .badRequest []
    else if !s.live n then s.reply n id 0x22 .noLease []
    else give n id 0x22 none .release mask s) s)

def execHandover (n : Node) (id : BitVec 16) (mask : SlotMask) (s : State) :
    Host.Outcome State Fault Refusal :=
  .next (whenUp n (fun s =>
    if mask = 0 then s.reply n id 0x23 .badRequest []
    else if !s.live n then s.reply n id 0x23 .noLease []
    else if !s.live n.partner then s.reply n id 0x23 .partnerNotLive []
    else give n id 0x23 (some n.partner) .handover mask s) s)

/-! ### SLOT_STATUS (R23) -/

/-- R23, group "slot record". -/
def slotRecordItems (r : SlotRec) : List Byte :=
  u8 (phaseCode r.phase) ++ u8 (ownerCode r.owner) ++ genItem r.generation ++ u8 (policyCode r.policy)
    ++ u8 (r.quota.get .a) ++ u8 (r.quota.get .b) ++ flag r.storeLost
    ++ optItem 1 (fun o => u8 (ownerCode o)) r.target ++ optItem 1 (fun p => u8 (pathCode p)) r.path
    ++ optItem 1 (fun n => u8 (nodeCode n)) r.batch ++ optItem 1 (fun n => u8 (nodeCode n)) r.autoPending
    ++ optItem 4 tickItem r.drainDeadline

/-- R23, group "bay". -/
def bayItems (b : Bay) : List Byte :=
  u8 (bayCode b.state) ++ optItem 8 (fun f : Fingerprint => u64 f.toNat) b.recorded
    ++ optItem 8 (fun f : Fingerprint => u64 f.toNat) b.presented ++ optItem 6 lbaItem b.capacity
    ++ optItem 1 (fun c => u8 (resetCauseCode c)) b.resetCause ++ optItem 4 tickItem b.resetDeadline
    ++ optItem 4 tickItem b.bringupDeadline

/-- R23, group "load". -/
def loadItems (e : Engine) : List Byte :=
  u8 (e.outstanding .a) ++ u8 (e.outstanding .b) ++ u8 e.waiting.length
    ++ u8 (e.tags.filter TagEntry.isActive).length ++ u8 e.orphans
    ++ u8 (e.tags.filter TagEntry.isProbe).length

/-- R23, group "counters". -/
def counterItems (e : Engine) (b : Bay) : List Byte :=
  countItem e.spurious ++ countItem e.droppedToDrive ++ countItem e.droppedFromDrive
    ++ countItem b.resetsStarted ++ countItem b.resetsFailed ++ countItem b.linkLosses
    ++ countItem b.bringupsFailed ++ countItem b.identifyRetries

/-- R23: the reply data of SLOT_STATUS. -/
def slotStatusReply (s : State) (i : Slot) : List Byte :=
  slotRecordItems (s.slot i) ++ bayItems (s.bay i) ++ loadItems (s.engine i)
    ++ counterItems (s.engine i) (s.bay i) ++ tickItem s.now

def execSlotStatus (n : Node) (id : BitVec 16) (slot : Slot) (s : State) :
    Host.Outcome State Fault Refusal :=
  .next (whenUp n (fun s => s.reply n id 0x20 .done (slotStatusReply s slot)) s)

end Sys2Proof.Machine
end

