-- ==== Sys2Proof/Machine/Windows.lean ====
section
/-! DEFINITION. The requests on the Window Table (R69, R71, R72). -/

namespace Sys2Proof.Machine

/-- The reply data of a last clear. -/
def lastClearItem (c : LastClear) : List Byte :=
  u8 (clearCauseCode c.cause) ++ slotItem c.slot ++ u8 (windowKindCode c.kind) ++ lbaItem c.first
    ++ lbaItem c.last ++ countItem c.hits

/-- R72: one entry of a WINDOW_STATUS reply; "none" is an absent last clear. The entry as now set of a
SET_WINDOW reply has the same layout, with the hit count's presence byte and the absent last clear: the
model's choice (log 9). -/
def windowItem (w : Window) : List Byte :=
  u8 (if w.active.isSome then 1 else 0)
    ++ optItem 1 (fun a : ActiveWindow => slotItem a.slot) w.active
    ++ optItem 6 (fun a : ActiveWindow => lbaItem a.first) w.active
    ++ optItem 6 (fun a : ActiveWindow => lbaItem a.last) w.active
    ++ optItem 1 (fun a : ActiveWindow => u8 (windowKindCode a.kind)) w.active
    ++ optItem 2 countItem (if w.active.isSome then some w.hits else none)
    ++ optItem 1 (fun a : ActiveWindow => u8 (nodeCode a.setBy)) w.active
    ++ optItem 4 (fun a : ActiveWindow => tickItem a.setTick) w.active
    ++ optItem 17 lastClearItem w.lastClear

/-- R69: the previous contents of an entry in a SET_WINDOW reply. -/
def previousItem (w : Window) : List Byte :=
  u8 (if w.active.isSome then 1 else 0)
    ++ optItem 1 (fun a : ActiveWindow => slotItem a.slot) w.active
    ++ optItem 6 (fun a : ActiveWindow => lbaItem a.first) w.active
    ++ optItem 6 (fun a : ActiveWindow => lbaItem a.last) w.active
    ++ optItem 1 (fun a : ActiveWindow => u8 (windowKindCode a.kind)) w.active
    ++ optItem 2 countItem (if w.active.isSome then some w.hits else none)
    ++ optItem 17 lastClearItem w.lastClear

def State.window (s : State) (k : Fin 4) : Window := s.windows[k]
def State.setWindow (s : State) (k : Fin 4) (w : Window) : State :=
  { s with windows := putAt s.windows k w }

/-- The phase is CLAIMED or DRAINING. -/
def Phase.taking (p : Phase) : Bool := decide (p = .claimed) || decide (p = .draining)

/-- R69: the order in which a SET_WINDOW is judged. -/
def judgeSetWindow (n : Node) (k : Fin 4) (i : Slot) (s : State) : Result :=
  let p := (s.slot i).phase
  if !s.live n then .noLease
  else if p.taking || decide (p = .handing) || decide (p = .committing) then .wrongState
  else if decide (p = .unowned) || decide ((s.slot i).owner ≠ some n) then .notOwner
  else
    match (s.window k).active with
    | none => .done
    | some a =>
      if (s.slot a.slot).owner ≠ some n then .notOwner
      else if (s.slot a.slot).phase.taking then .wrongState
      else .done

/-- R69: a taken SET_WINDOW. -/
def setWindow (n : Node) (id : BitVec 16) (k : Fin 4) (i : Slot) (first last : Lba) (kind : WindowKind)
    (s : State) : State :=
  let w : Window :=
    { active := some { slot := i, first := first, last := last, kind := kind, setBy := n,
                       setTick := s.now }
      hits := 0, lastClear := none }
  (s.setWindow k w).reply n id 0x40 .done (windowItem w ++ previousItem (s.window k))

def execSetWindow (n : Node) (id : BitVec 16) (index : Byte) (slot : Slot) (first last : Lba)
    (kind : Byte) (s : State) : Host.Outcome State Fault Refusal :=
  .next (whenUp n (fun s =>
    match windowIndexOf index, windowKindOf kind with
    | some k, some w =>
      if last.toNat < first.toNat then s.reply n id 0x40 .badRequest []
      else
        let r := judgeSetWindow n k slot s
        if r = .done then setWindow n id k slot first last w s else s.reply n id 0x40 r []
    | _, _ => s.reply n id 0x40 .badRequest []) s)

/-- R71: the order in which a CLEAR_WINDOW is judged, for an ACTIVE entry. -/
def judgeClearWindow (n : Node) (a : ActiveWindow) (s : State) : Result :=
  if (s.slot a.slot).owner ≠ some n then .notOwner
  else if (s.slot a.slot).phase.taking then .wrongState
  else .done

/-- R71: the reply data say whether the entry was already unused and carry its last clear. What the
"cleared contents" of a taken request are is the model's choice (log 9): the last clear that the clear has
just written, behind its presence byte, in R68's order: cause, slot, kind, range and final hit count; the
set by and the set tick of the cleared entry are not sent. -/
def clearWindowReply (already : Bool) (w : Window) : List Byte :=
  flag already ++ optItem 17 lastClearItem w.lastClear

/-- CLEAR_WINDOW from a live requester (R71). -/
def clearWindow (n : Node) (id : BitVec 16) (k : Fin 4) (s : State) : State :=
  let w := s.window k
  match w.active with
  | none => s.reply n id 0x41 .done (clearWindowReply true w)
  | some a =>
    let r := judgeClearWindow n a s
    if r = .done then
      (s.setWindow k (w.clear .request)).reply n id 0x41 .done (clearWindowReply false (w.clear .request))
    else s.reply n id 0x41 r []

def execClearWindow (n : Node) (id : BitVec 16) (index : Byte) (s : State) :
    Host.Outcome State Fault Refusal :=
  .next (whenUp n (fun s =>
    match windowIndexOf index with
    | none => s.reply n id 0x41 .badRequest []
    | some k => if s.live n then clearWindow n id k s else s.reply n id 0x41 .noLease []) s)

/-- R72: the reply data of WINDOW_STATUS. -/
def windowStatusReply (s : State) : List Byte :=
  listItem (fun k => windowItem (s.window k)) allWindows ++ tickItem s.now

def execWindowStatus (n : Node) (id : BitVec 16) (s : State) : Host.Outcome State Fault Refusal :=
  .next (whenUp n (fun s => s.reply n id 0x42 .done (windowStatusReply s)) s)

end Sys2Proof.Machine
end

