-- ==== Sys2Proof/Machine/Admission.lean ====
section
/-! DEFINITION. Command admission: the nine checks of a CMD (R47 to R53, R73, R74), and DATA from a
node (R61). -/

namespace Sys2Proof.Machine

/-- What admission decides (R47). -/
inductive Verdict where
  /-- Refused with a status and a detail. -/
  | refuse (status : CplStatus) (detail : BitVec 16)
  /-- Refused TRAPPED by this TRIP window (R74). -/
  | trap (window : Fin 4)
  /-- Admitted as a command of this kind, through this SHARE window if any (R53). -/
  | accept (kind : Kind) (window : Option (Fin 4))
  deriving DecidableEq, Repr

/-- Check 1 (R48): the status for a bay that is not READY. -/
def bayRefusal : BayState → Option CplStatus
  | .empty => some .slotVacant
  | .bringup => some .slotBusy
  | .resetting => some .slotBusy
  | .held => some .slotHeld
  | .failed => some .slotFaulted
  | .suspect => some .checkDrive
  | .ready => none

/-- Check 3 (R49): the phase admits the sender. -/
def phaseRefusal (r : SlotRec) (n : Node) : Option CplStatus :=
  match r.phase with
  | .draining => if r.owner = some n then some .fenced else some .takeoverPending
  | .handing | .committing => some .takeoverPending
  | .unowned | .owned | .claimed => none

/-- R73: the lowest-numbered SHARE window of the slot that admits the command. -/
def shareWindow (s : State) (i : Slot) (kind : Option Kind) (lba : Lba) (count : BitVec 16) :
    Option (Fin 4) :=
  allWindows.find? (fun k => match (s.window k).active with
    | some a => decide (a.slot = i) && shareAdmits a kind lba count
    | none => false)

/-- R74: the lowest-numbered TRIP window of the slot that a WRITE overlaps. -/
def tripWindow (s : State) (i : Slot) (lba : Lba) (count : BitVec 16) : Option (Fin 4) :=
  allWindows.find? (fun k => match (s.window k).active with
    | some a => decide (a.slot = i) && decide (a.kind = .trip) && overlaps a.first a.last lba count
    | none => false)

/-- Check 7 (R51): the node tag is outstanding for the sender at the bay. -/
def tagOutstanding (e : Engine) (n : Node) (tag : Byte) : Bool :=
  e.waiting.any (fun c => decide (c.node = n ∧ c.tag = tag)) ||
    e.tags.any (fun t => match t.role with
      | .active c _ => decide (c.node = n ∧ c.tag = tag)
      | _ => false)

/-- Checks 6 to 9 (R51, R52). -/
def lateChecks (s : State) (n : Node) (i : Slot) (tag : Byte) (kind : Option Kind) (lba : Lba)
    (count : BitVec 16) (window : Option (Fin 4)) : Verdict :=
  let e := s.engine i
  let quota := (s.slot i).quota.get n
  match kind with
  | none => .refuse .badCommand 0
  | some k =>
    if !commandValid (((s.bay i).capacity.map BitVec.toNat).getD 0) k lba count then .refuse .badCommand 0
    else if tagOutstanding e n tag then .refuse .tagInUse 0
    else if quota ≤ e.outstanding n then .refuse .quotaFull (BitVec.ofNat 16 quota)
    else if 16 ≤ e.waiting.length then .refuse .queueFull 0
    else .accept k window

/-- R47: the nine checks in order. -/
def admission (s : State) (n : Node) (i : Slot) (tag : Byte) (kind : Option Kind) (gen : Gen) (lba : Lba)
    (count : BitVec 16) : Verdict :=
  let r := s.slot i
  match bayRefusal (s.bay i).state with
  | some st => .refuse st 0
  | none =>
    if !s.live n then .refuse .noLease 0
    else
      match phaseRefusal r n with
      | some st => .refuse st 0
      | none =>
        if r.owner = some n then
          match (if kind = some .write then tripWindow s i lba count else none) with
          | some k => .trap k
          | none =>
            if gen ≠ r.generation then .refuse .staleGeneration 0
            else lateChecks s n i tag kind lba count none
        else
          match shareWindow s i kind lba count with
          | none => .refuse .notOwner 0
          | some k =>
            if gen ≠ 0 ∧ gen ≠ r.generation then .refuse .staleGeneration 0
            else lateChecks s n i tag kind lba count (some k)

/-- A window's hit count rises by one unless it is at 65,535 (R73, R74). -/
def State.hit (s : State) (k : Fin 4) : State :=
  s.setWindow k { s.window k with hits := satInc (s.window k).hits }

/-- R74: a TRAPPED refusal. -/
def State.trapped (s : State) (n : Node) (i : Slot) (tag : Byte) (lba : Lba) (count : BitVec 16)
    (k : Fin 4) : State :=
  ((s.sendCpl n i tag .trapped (BitVec.ofNat 16 k.val)).hit k).raiseBoth (some i)
    (.tripHit k tag count (lba.setWidth 32))

/-- R53: the command joins the tail of the waiting list and its window is credited. -/
def State.admitted (s : State) (i : Slot) (c : Command) (window : Option (Fin 4)) : State :=
  let s := s.setEngine i { s.engine i with waiting := (s.engine i).waiting ++ [c] }
  match window with
  | some k => s.hit k
  | none => s

/-- CMD (R47): refused at once, or admitted and the arbiter runs. -/
def command (n : Node) (i : Slot) (tag : Byte) (kind : Byte) (gen : Gen) (lba : Lba) (count : BitVec 16)
    (s : State) : State :=
  match admission s n i tag (kindOf kind) gen lba count with
  | .refuse st detail => s.sendCpl n i tag st detail
  | .trap k => s.trapped n i tag lba count k
  | .accept k window =>
    (s.admitted i { node := n, tag := tag, kind := k, lba := lba, count := count } window).arbiter i

def execCmd (n : Node) (slot : Slot) (tag : Byte) (kind : Byte) (gen : Gen) (lba : Lba)
    (count : BitVec 16) (s : State) : Host.Outcome State Fault Refusal :=
  .next (whenUp n (command n slot tag kind gen lba count) s)

/-! ### DATA from a node (R61) -/

/-- The drive tag of the node's ACTIVE entry with this node tag, if its kind is WRITE. -/
def writeTag (e : Engine) (n : Node) (tag : Byte) : Option DriveTag :=
  (e.tags.find? (fun t => match t.role with
    | .active c _ => decide (c.node = n ∧ c.tag = tag ∧ c.kind = .write)
    | _ => false)).map TagEntry.tag

/-- DATA (R61): relayed to the drive, or dropped and counted at the bay and at the port (R157). -/
def relayData (n : Node) (i : Slot) (tag : Byte) (payload : List Byte) (s : State) : State :=
  match writeTag (s.engine i) n tag with
  | some k => s.toDrive i [.data k payload]
  | none =>
    let p := s.port n
    (s.setEngine i { s.engine i with droppedToDrive := satInc (s.engine i).droppedToDrive }).setPort n
      { p with droppedData := satInc p.droppedData }

def execData (n : Node) (slot : Slot) (tag : Byte) (payload : List Byte) (s : State) :
    Host.Outcome State Fault Refusal :=
  .next (whenUp n (relayData n slot tag payload) s)

end Sys2Proof.Machine
end

