-- ==== Sys2Proof/Machine/Audit.lean ====
section
/-! DEFINITION. The requests of the Audit Unit and of the Notice Queues (R131, R138, R140, R146 to
R149). -/

namespace Sys2Proof.Machine

/-! ### START_AUDIT, STEP_AUDIT, STOP_AUDIT (R131, R138) -/

/-- R131: the order in which a START_AUDIT is judged; `done` for items 5 and 6. -/
def judgeStart (n : Node) (s : State) : Result :=
  if !s.live n then .noLease
  else if !(s.notice n).on then .noticesOff
  else
    match s.sweep.state, s.sweep.run with
    | .idle, _ => .done
    | _, none => .done
    | _, some w => if w.requester = n ∧ w.mode = .once then .done else .busy

/-- The slots of a range, as a count: (last − first) mod 8 + 1 (R129). -/
def rangeCount (first last : Slot) : Nat := (last - first).val + 1

/-- R131: a taken START_AUDIT, after a running ONCE sweep of this node has ended RESTARTED. -/
def startSweep (n : Node) (first last : Slot) (mode : AuditMode) (budget : Byte) (s : State) : State :=
  let s := endSweepOf n .restarted s
  let w : SweepRun :=
    { requester := n, first := first, last := last, mode := mode, budget := budget, issued := 0, pass := 0,
      startTick := s.now }
  handleSlot first (s.setSweep { s.sweep with state := .probing, run := some w, holder := none,
                                              probe := none, ended := none })

/-- Results issued by the sweep. -/
def Sweep.issued (w : Sweep) : Count16 := (w.run.map SweepRun.issued).getD 0

def execStartAudit (n : Node) (id : BitVec 16) (first last : Slot) (mode budget : Byte) (s : State) :
    Host.Outcome State Fault Refusal :=
  .next (whenUp n (fun s =>
    match auditModeOf mode with
    | none => s.reply n id 0x50 .badRequest []
    | some m =>
      let r := judgeStart n s
      if r = .done then
        let s := startSweep n first last m budget s
        s.reply n id 0x50 .done (u8 (rangeCount first last) ++ countItem s.sweep.issued)
      else s.reply n id 0x50 r []) s)

/-- The tests STEP_AUDIT and STOP_AUDIT share (R138). -/
def judgeSweep (n : Node) (s : State) : Result :=
  if s.sweep.state = .idle then .wrongState
  else if s.sweep.runsFor n then .done else .notOwner

def execStepAudit (n : Node) (id : BitVec 16) (s : State) : Host.Outcome State Fault Refusal :=
  .next (whenUp n (fun s =>
    let r := judgeSweep n s
    if r ≠ .done then s.reply n id 0x51 r []
    else
      match s.sweep.state, s.sweep.current with
      | .pausedStep, some i => (handleSlot i s).reply n id 0x51 .done (slotItem i)
      | _, _ => s.reply n id 0x51 .wrongState []) s)

def execStopAudit (n : Node) (id : BitVec 16) (s : State) : Host.Outcome State Fault Refusal :=
  .next (whenUp n (fun s =>
    let r := judgeSweep n s
    if r = .done then
      (endSweep .stopped s).reply n id 0x52 .done (countItem s.sweep.issued)
    else s.reply n id 0x52 r []) s)

/-! ### AUDIT_STATUS (R140) -/

/-- R130: a result as reply data. -/
def resultItem (r : AuditResult) : List Byte :=
  slotItem r.slot ++ u8 (auditOutcomeCode r.outcome) ++ u8 (ownerCode r.owner) ++ genItem r.generation
    ++ u8 (phaseCode r.phase) ++ u8 (bayCode r.bayState)
    ++ optItem 8 (fun f : Fingerprint => u64 f.toNat) r.fingerprint
    ++ optItem 2 (fun x : BitVec 16 => u16 x.toNat) r.driveStatus ++ tickItem r.tick

/-- R129: the stage, tag and deadline of an outstanding probe. -/
def probeItems (p : Option Probe) : List Byte :=
  let d := p.bind (fun x => match x with
    | .requested => none
    | .dispatched k t => some (k, t))
  optItem 1 (fun x => match x with
    | .requested => u8 0
    | .dispatched _ _ => u8 1) p
    ++ optItem 1 (fun x => u8 x.1.val) d ++ optItem 4 (fun x => tickItem x.2) d

/-- R129: the fields of the sweep record, in the order of its table. -/
def sweepItems (w : Sweep) : List Byte :=
  u8 (sweepCode w.state) ++ optItem 1 (fun r : SweepRun => u8 (nodeCode r.requester)) w.run
    ++ optItem 1 (fun r : SweepRun => slotItem r.first) w.run
    ++ optItem 1 (fun r : SweepRun => slotItem r.last) w.run
    ++ optItem 1 (fun r : SweepRun => u8 (auditModeCode r.mode)) w.run
    ++ optItem 1 (fun r : SweepRun => u8 r.budget.toNat) w.run ++ optItem 1 slotItem w.current
    ++ optItem 2 (fun r : SweepRun => countItem r.issued) w.run
    ++ optItem 2 (fun r : SweepRun => countItem r.pass) w.run ++ probeItems w.probe
    ++ optItem 4 (fun r : SweepRun => tickItem r.startTick) w.run
    ++ optItem 1 (fun x => u8 (endReasonCode x.1)) w.ended ++ optItem 4 (fun x => tickItem x.2) w.ended

/-- R140: the reply data of AUDIT_STATUS. A result takes 23 bytes. Each of the eight entries of the table
opens with a presence byte, and an empty one carries no slot number: the model's choice (log 9). -/
def auditStatusReply (s : State) : List Byte :=
  sweepItems s.sweep ++ optItem 23 resultItem s.sweep.holder
    ++ listItem (fun i : Slot => optItem 23 resultItem s.sweep.table[i]) allSlots ++ tickItem s.now

def execAuditStatus (n : Node) (id : BitVec 16) (s : State) : Host.Outcome State Fault Refusal :=
  .next (whenUp n (fun s => s.reply n id 0x53 .done (auditStatusReply s)) s)

/-! ### FETCH_NOTICES, SET_NOTICES, READ_SUMMARY (R147 to R149) -/

/-- The queue without its oldest notices, up to 8 of them (R147). -/
def NoticeQueue.fetch (q : NoticeQueue) : NoticeQueue :=
  { q with queue := q.queue.drop 8, attention := q.attention && !(q.queue.drop 8).isEmpty }

/-- R137, R147: the held result of a PAUSED_FULL sweep of this node takes the first freed place. -/
def State.placeHeld (s : State) (n : Node) : State :=
  match s.sweep.holder, s.sweep.run with
  | some r, some w =>
    if s.sweep.state = .pausedFull ∧ w.requester = n then s.placeResult w r else s
  | _, _ => s

/-- FETCH_NOTICES (R147). The reply counts the notices left after the held result's append (log 11);
the sweep then proceeds (R132). -/
def fetchNotices (n : Node) (id : BitVec 16) (s : State) : State :=
  let out := (s.notice n).queue.take 8
  let held := decide (s.sweep.state = .pausedFull) && s.sweep.runsFor n && s.sweep.holder.isSome
  let s := s.setNotice n (s.notice n).fetch
  let placed := held && !out.isEmpty
  let s := if placed then s.placeHeld n else s
  let s := s.reply n id 0x60 .done (listItem noticeRecord out ++ u8 (s.notice n).queue.length)
  match s.sweep.current with
  | some i => if placed then walkOn 33 i s else s
  | none => s

def execFetchNotices (n : Node) (id : BitVec 16) (s : State) : Host.Outcome State Fault Refusal :=
  .next (whenUp n (fetchNotices n id) s)

/-- R148: the queue with its enable and mask replaced; notices turned off leave it empty. -/
def NoticeQueue.set (q : NoticeQueue) (on : Bool) (mask : BitVec 32) : NoticeQueue :=
  let keep := on && q.on
  { q with
    on := on, mask := mask &&& assignedKinds
    queue := if keep then q.queue else [], attention := q.attention && keep }

/-- SET_NOTICES (R148). -/
def setNotices (n : Node) (id : BitVec 16) (on : Bool) (mask : BitVec 32) (s : State) : State :=
  let q := s.notice n
  let s := s.setNotice n (q.set on mask)
  let s := if q.on && !on then endSweepOf n .noticesOff s else s
  s.reply n id 0x61 .done (flag on ++ u32 (mask &&& assignedKinds).toNat
    ++ u8 (if q.on && !on then q.queue.length else 0))

def execSetNotices (n : Node) (id : BitVec 16) (enable : Byte) (mask : BitVec 32) (s : State) :
    Host.Outcome State Fault Refusal :=
  .next (whenUp n (fun s =>
    match switchOf enable with
    | some on => setNotices n id on mask s
    | none => s.reply n id 0x61 .badRequest []) s)

/-- READ_SUMMARY (R149). -/
def readSummary (n : Node) (id : BitVec 16) (s : State) : State :=
  let q := s.notice n
  (s.setNotice n { q with summary := 0, dropped := 0 }).reply n id 0x62 .done
    (u32 q.summary.toNat ++ countItem q.dropped)

def execReadSummary (n : Node) (id : BitVec 16) (s : State) : Host.Outcome State Fault Refusal :=
  .next (whenUp n (readSummary n id) s)

end Sys2Proof.Machine
end

