-- ==== Sys2Proof/Machine/Link.lean ====
section
/-! DEFINITION. The Node Ports: arriving frames that fail a check, RESUME, identification and link
status, training and link loss (R150 to R157), and the links carrying produced frames away. -/

namespace Sys2Proof.Machine

/-! ### Arriving frames (R151 to R153, R155) -/

/-- A frame reaches the port: the controller runs and the port is UP or HALTED (R151). -/
def State.receives (s : State) (n : Node) : Bool :=
  s.running && decide ((s.port n).state ≠ .down)

/-- R151: check errors rises by one. -/
def countCheckError (n : Node) (s : State) : State :=
  s.setPort n { s.port n with checkErrors := satInc (s.port n).checkErrors }

/-- CRC_CHECK_FAILED (R151), for bytes that fail the check. -/
def execCrcCheckFailed (n : Node) (frame : List Byte) (s : State) : Host.Outcome State Fault Refusal :=
  .next (whenTrue (fun s => s.receives n && !frameIntact frame) (countCheckError n) s)

/-- R152: the port enters HALTED and the last fault is written. -/
def haltPort (n : Node) (k : FaultKind) (frame : List Byte) (s : State) : State :=
  s.setPort n { s.port n with
    state := .halted, lastFault := some { kind := k, classByte := byteAt frame 0, tick := s.now } }

/-- PROTOCOL_FAULT (R152), for an intact frame that fails a structure check on a port that is UP. -/
def execProtocolFault (n : Node) (frame : List Byte) (s : State) : Host.Outcome State Fault Refusal :=
  .next (whenUp n (fun s =>
    match structureFault frame with
    | some k => if frameIntact frame then haltPort n k frame s else s
    | none => s) s)

/-- HALTED_FRAME_DISCARD (R153): "discarded without an answer and without a count". -/
def execHaltedFrameDiscard (_n : Node) (_frame : List Byte) (s : State) :
    Host.Outcome State Fault Refusal :=
  .next s

/-- R155 items 1 to 3: an intact, well-structured REQ that is no request of the catalog. -/
def isBadRequest (n : Node) (frame : List Byte) : Bool :=
  frameIntact frame && (structureFault frame).isNone && decide (byteAt frame 0 = 3) &&
    (requestIn n frame).isNone

/-- BAD_REQUEST (R155): the RSP echoes the request id and the code. -/
def execBadRequest (n : Node) (frame : List Byte) (s : State) : Host.Outcome State Fault Refusal :=
  .next (whenUp n (whenTrue (fun _ => isBadRequest n frame) (fun s =>
    s.reply n (requestId frame) (requestCode frame) .badRequest [])) s)

/-! ### IDENTIFY, RESUME, LINK_STATUS (R153, R156, R157) -/

/-- R156: vendor, part and revision code, bay count and tick counter. The 2 bytes of the vendor and of the
part code, which do not fit the 1 byte that 12.2 gives a code, are the model's choice (log 9). -/
def identifyReply (s : State) : List Byte := u16 0x5651 ++ u16 0x0742 ++ u8 0x01 ++ u8 8 ++ tickItem s.now

def execIdentify (n : Node) (id : BitVec 16) (s : State) : Host.Outcome State Fault Refusal :=
  .next (whenUp n (fun s => s.reply n id 0x01 .done (identifyReply s)) s)

/-- The last fault, or "none" (R153, R157). -/
def lastFaultItem (f : Option LastFault) : List Byte :=
  optItem 6 (fun f => u8 (faultKindCode f.kind) ++ u8 f.classByte.toNat ++ tickItem f.tick) f

/-- RESUME (R153), by the state of the port. -/
def resume (n : Node) (id : BitVec 16) (s : State) : State :=
  let p := s.port n
  match p.state with
  | .halted => (s.setPort n { p with state := .up }).reply n id 0x02 .done (lastFaultItem p.lastFault)
  | .up => s.reply n id 0x02 .wrongState (lastFaultItem p.lastFault)
  | .down => s

def execResume (n : Node) (id : BitVec 16) (s : State) : Host.Outcome State Fault Refusal :=
  .next (whenRunning (resume n id) s)

/-- R157: the port's state, its three counts and the last fault. -/
def linkStatusReply (p : Port) : List Byte :=
  u8 (portCode p.state) ++ countItem p.checkErrors ++ countItem p.droppedData ++ countItem p.discardedCpl
    ++ lastFaultItem p.lastFault

/-- R157: the three counts are set to 0 and the last fault is removed. -/
def Port.clearStatus (p : Port) : Port :=
  { p with checkErrors := 0, droppedData := 0, discardedCpl := 0, lastFault := none }

def execLinkStatus (n : Node) (id : BitVec 16) (s : State) : Host.Outcome State Fault Refusal :=
  .next (whenUp n (fun s =>
    (s.setPort n (s.port n).clearStatus).reply n id 0x03 .done (linkStatusReply (s.port n))) s)

/-! ### Training and link loss (R150, R154) -/

/-- LINK_TRAINING_COMPLETE (R150, R154): a DOWN port becomes UP with an empty awaiting-reply set. -/
def trained (n : Node) (s : State) : State :=
  s.setPort n { s.port n with state := .up, awaiting := [] }

def execLinkTrainingComplete (n : Node) (s : State) : Host.Outcome State Fault Refusal :=
  .next (whenRunning (whenTrue (fun s => decide ((s.port n).state = .down)) (trained n)) s)

/-- A produced frame that is a CPL. -/
def NodeFrame.isCpl : NodeFrame → Bool
  | .cpl _ _ _ _ _ => true
  | _ => false

/-- A produced frame that is a DATA frame. -/
def NodeFrame.isData : NodeFrame → Bool
  | .data _ _ _ => true
  | _ => false

/-- R154 items 1 and 2: unsent frames are discarded and counted, the awaiting-reply set is emptied. -/
def Port.lose (p : Port) : Port :=
  { p with
    state := .down, awaiting := [], unsent := []
    discardedCpl := satAdd p.discardedCpl (p.unsent.filter NodeFrame.isCpl).length
    droppedData := satAdd p.droppedData (p.unsent.filter NodeFrame.isData).length }

/-- R34: a live lease whose fast-expiry flag is set expires when its port goes DOWN. -/
def fastExpire (n : Node) (s : State) : State :=
  if (s.lease n).fastExpiry && s.live n then expire n s else s

/-- NODE_LINK_LOSS (R154), in the order of its items: the model's choice (log 36), by which a fast expiry
ends the node's sweep LEASE_LOST before PORT_DOWN can. -/
def linkLost (n : Node) (s : State) : State :=
  endSweepOf n .portDown (fastExpire n (s.setPort n (s.port n).lose))

def execNodeLinkLoss (n : Node) (s : State) : Host.Outcome State Fault Refusal :=
  .next (whenTrue (fun s => s.receives n) (linkLost n) s)

/-! ### The links at work (log 6) -/

/-- A trained link carries its oldest produced frame away. A HALTED port goes on sending what was produced
before its fault, the model's choice (log 37). -/
def Port.sendOne (p : Port) : Port := { p with unsent := p.unsent.drop 1 }

/-- With no command waiting, each node link and each drive link sends its oldest produced frame. A drive
link does so whatever its bay's state, even while its reset signal is held: the model's choice (log 34). -/
def sendFrames (s : State) : State :=
  { s with
    ports := ⟨s.ports.ofA.sendOne, s.ports.ofB.sendOne⟩
    driveOut := tabulate (fun i => s.driveOut[i].drop 1) }

/-- What a step does on an empty queue. -/
def idle (s : State) : State := whenRunning sendFrames s

end Sys2Proof.Machine
end

