-- ==== Sys2Proof/Machine/StoreUnit.lean ====
section
/-! DEFINITION. The Ownership Store: STORE_STATUS and the end of a write attempt (R160 to R162). -/

namespace Sys2Proof.Machine

/-- R162: the reply data of STORE_STATUS. -/
def storeStatusReply (st : Store) : List Byte :=
  let writing : Option (Slot × Nat) := match st.mode with
    | .writing u k _ => some (u.slot, k)
    | _ => none
  u8 (storeCode st.mode) ++ optItem 2 (fun x => slotItem x.1 ++ u8 x.2) writing
    ++ listItem (fun u : Update => slotItem u.slot) st.queue ++ u8 st.lostSet.toNat

def execStoreStatus (n : Node) (id : BitVec 16) (s : State) : Host.Outcome State Fault Refusal :=
  .next (whenUp n (fun s => s.reply n id 0x70 .done (storeStatusReply s.store)) s)

/-- R160: "Each attempt at a write ends between 20 and 80 ticks after it starts". An end outside that
range is no end the store can give (log 17). -/
def attemptMayEnd (now started : Tick) : Bool :=
  decide (20 ≤ (now - started).toNat) && decide ((now - started).toNat ≤ 80)

/-- What an update writes; its check value fits (R158). -/
def Update.record (u : Update) : StoreRec :=
  { owner := u.owner, generation := u.generation, fingerprint := u.fingerprint, intact := true }

/-- The update's record is in the store. -/
def Store.write (st : Store) (u : Update) : Store := { st with records := putAt st.records u.slot u.record }

/-- An update completes; a commit that waits for it ends (R9). -/
def completeUpdate (stored : Bool) (u : Update) (s : State) : State :=
  if u.commitWaits then commitDone u.slot stored s else s

/-- R160: the store becomes READY, and the next write starts if an update waits. -/
def State.storeReady (s : State) : State := s.setStore ({ s.store with mode := .ready }.kick s.now)

/-- STORE_WRITE_DONE (R160). -/
def writeDone (s : State) : State :=
  match s.store.mode with
  | .writing u _ started =>
    if attemptMayEnd s.now started then
      (completeUpdate true u (s.setStore (s.store.write u))).storeReady
    else s
  | _ => s

def execStoreWriteDone (s : State) : Host.Outcome State Fault Refusal := .next (whenRunning writeDone s)

/-- R161: the store becomes FAULTED, STORE_FAULT is raised to both nodes, and the failed update and
then each waiting update complete as "not stored". -/
def storeFails (u : Update) (s : State) : State :=
  let waiting := s.store.queue
  let s := (s.setStore { s.store with mode := .faulted, queue := [] }).raiseBoth (some u.slot)
    (.storeFault waiting.length)
  (u :: waiting).foldl (fun s v => completeUpdate false v s) s

/-- STORE_WRITE_FAILED (R161): the attempt is retried at once, and the third failure is final. -/
def writeFailed (s : State) : State :=
  match s.store.mode with
  | .writing u attempt started =>
    if attemptMayEnd s.now started then
      if attempt < 3 then s.setStore { s.store with mode := .writing u (attempt + 1) s.now }
      else storeFails u s
    else s
  | _ => s

def execStoreWriteFailed (s : State) : Host.Outcome State Fault Refusal := .next (whenRunning writeFailed s)

end Sys2Proof.Machine
end

