-- ==== Sys2Proof/Machine/Startup.lean ====
section
/-! DEFINITION. Power-on, power failure and the reset input (R2, R158, R160, R163). Log 22 says what
each does to a controller that is off or held in reset. -/

namespace Sys2Proof.Machine

/-- R160: a write in progress leaves its record old or new, and the waiting updates are lost. Which
of the two is a free value (log 7). -/
def State.resolveWrite (s : State) : State :=
  match s.store.mode with
  | .writing u _ _ =>
    let st : Store := { s.store with mode := .ready, queue := [] }
    { s with
      store := if Config.interruptedWriteIsNew s.freeCount then st.write u else st
      freeCount := s.freeCount + 1 }
  | _ => s.setStore { s.store with mode := .ready, queue := [] }

/-- R158: what a record restores; one that fails its check restores as owner NONE, generation 0 and
no fingerprint. -/
def StoreRec.restored (r : StoreRec) : StoreRec :=
  if r.intact then r else { owner := none, generation := 0, fingerprint := none, intact := false }

/-- R2. -/
def startSlot (r : StoreRec) : SlotRec :=
  { SlotRec.initial with
    phase := if r.restored.owner.isSome then .owned else .unowned
    owner := r.restored.owner, generation := r.restored.generation, storeLost := !r.intact }

/-- R112: the presence input is sampled without debounce. -/
def startBay (r : StoreRec) (input : Bool) : Bay :=
  { Bay.initial with
    state := if input then .bringup else .empty
    recorded := r.restored.fingerprint, present := input, input := input
    bringupDeadline := if input then some 100000 else none
    awaits := if input then .readySignal else .nothing }

/-- R158: the set of slots whose record failed its check. -/
def lostSetOf (records : Vector StoreRec 8) : SlotMask :=
  maskOf (allSlots.filter (fun i => !(records[i]).intact))

/-- R163: every block takes its start-up values at one event; the store content survives, and so do
the levels of the pins and the waiting commands. -/
def startUp (s : State) : State :=
  let s := s.resolveWrite
  { State.reset with
    power := s.power
    slots := tabulate (fun i => startSlot s.store.records[i])
    bays := tabulate (fun i => startBay s.store.records[i] (s.bay i).input)
    store := { s.store with lostSet := lostSetOf s.store.records }
    freeCount := s.freeCount
    pending := s.pending }

/-- Both node ports are DOWN with nothing produced or awaited, and both attention outputs are
deasserted (R163). -/
def State.silence (s : State) : State :=
  let down := fun p : Port => { p with state := .down, awaiting := [], unsent := [] }
  let quiet := fun q : NoticeQueue => { q with attention := false }
  { s with ports := ⟨down s.ports.ofA, down s.ports.ofB⟩, notices := ⟨quiet s.notices.ofA, quiet s.notices.ofB⟩ }

/-- Every drive link is held in reset (R163). -/
def State.holdLinks (s : State) : State := { s with bays := tabulate (fun i => { s.bay i with linkHeld := true }) }

/-- The reset input as a level. -/
def State.setResetInput (s : State) (level : Bool) : State :=
  { s with power := { s.power with resetAsserted := level } }

/-- RESET_ASSERT (R163). -/
def assertReset (s : State) : State :=
  let t := s.setResetInput true
  if s.running then t.resolveWrite.silence.holdLinks else t

def execResetAssert (s : State) : Host.Outcome State Fault Refusal := .next (assertReset s)

/-- RESET_RELEASE (R163). -/
def releaseReset (s : State) : State :=
  let t := s.setResetInput false
  if s.power.resetAsserted && s.power.powered then startUp t else t

def execResetRelease (s : State) : Host.Outcome State Fault Refusal := .next (releaseReset s)

/-- POWER_ON (R163); with the reset input asserted the controller starts and is held. -/
def turnOn (s : State) : State :=
  let t := startUp { s with power := { s.power with powered := true } }
  if s.power.resetAsserted then t.holdLinks else t

def execPowerOn (s : State) : Host.Outcome State Fault Refusal := .next (turnOn s)

/-- POWER_FAIL (R160). What it does to the ports and the attention outputs, of which R145 and R163 speak at
power-on and the reset input alone, is the model's choice (log 38): both ports go DOWN with what they held
lost uncounted, attention is deasserted, and the drive links stay as they were. -/
def turnOff (s : State) : State :=
  if s.power.powered then { s.resolveWrite.silence with power := { s.power with powered := false } } else s

def execPowerFail (s : State) : Host.Outcome State Fault Refusal := .next (turnOff s)

end Sys2Proof.Machine
end

