-- ==== Sys2Proof/Machine/Dispatch.lean ====
section
/-! DEFINITION. What each command does: one arm for each row of spec/opcode_table.json. -/

namespace Sys2Proof.Machine

def exec (i : Instr) (s : State) : Host.Outcome State Fault Refusal :=
  match i with
  | .cmd n slot tag kind gen lba count => Sys2Proof.Machine.execCmd n slot tag kind gen lba count s
  | .data n slot tag payload => Sys2Proof.Machine.execData n slot tag payload s
  | .crcCheckFailed n frame => Sys2Proof.Machine.execCrcCheckFailed n frame s
  | .protocolFault n frame => Sys2Proof.Machine.execProtocolFault n frame s
  | .haltedFrameDiscard n frame => Sys2Proof.Machine.execHaltedFrameDiscard n frame s
  | .badRequest n frame => Sys2Proof.Machine.execBadRequest n frame s
  | .identify n id => Sys2Proof.Machine.execIdentify n id s
  | .resume n id => Sys2Proof.Machine.execResume n id s
  | .linkStatus n id => Sys2Proof.Machine.execLinkStatus n id s
  | .heartbeat n id period miss fast => Sys2Proof.Machine.execHeartbeat n id period miss fast s
  | .leave n id => Sys2Proof.Machine.execLeave n id s
  | .slotStatus n id slot => Sys2Proof.Machine.execSlotStatus n id slot s
  | .claimFree n id slot => Sys2Proof.Machine.execClaimFree n id slot s
  | .release n id mask => Sys2Proof.Machine.execRelease n id mask s
  | .handover n id mask => Sys2Proof.Machine.execHandover n id mask s
  | .setSlot n id slot policy quotaA quotaB => Sys2Proof.Machine.execSetSlot n id slot policy quotaA quotaB s
  | .hold n id slot => Sys2Proof.Machine.execHold n id slot s
  | .unhold n id slot => Sys2Proof.Machine.execUnhold n id slot s
  | .adopt n id slot => Sys2Proof.Machine.execAdopt n id slot s
  | .clearFault n id slot => Sys2Proof.Machine.execClearFault n id slot s
  | .resetDrive n id slot => Sys2Proof.Machine.execResetDrive n id slot s
  | .take n id mask => Sys2Proof.Machine.execTake n id mask s
  | .cancelTake n id => Sys2Proof.Machine.execCancelTake n id s
  | .batchStatus n id which => Sys2Proof.Machine.execBatchStatus n id which s
  | .setTiming n id w b p c l => Sys2Proof.Machine.execSetTiming n id w b p c l s
  | .readReport n id slot first => Sys2Proof.Machine.execReadReport n id slot first s
  | .discardReport n id slot => Sys2Proof.Machine.execDiscardReport n id slot s
  | .setWindow n id index slot first last kind => Sys2Proof.Machine.execSetWindow n id index slot first last kind s
  | .clearWindow n id index => Sys2Proof.Machine.execClearWindow n id index s
  | .windowStatus n id => Sys2Proof.Machine.execWindowStatus n id s
  | .startAudit n id first last mode budget => Sys2Proof.Machine.execStartAudit n id first last mode budget s
  | .stepAudit n id => Sys2Proof.Machine.execStepAudit n id s
  | .stopAudit n id => Sys2Proof.Machine.execStopAudit n id s
  | .auditStatus n id => Sys2Proof.Machine.execAuditStatus n id s
  | .fetchNotices n id => Sys2Proof.Machine.execFetchNotices n id s
  | .setNotices n id enable mask => Sys2Proof.Machine.execSetNotices n id enable mask s
  | .readSummary n id => Sys2Proof.Machine.execReadSummary n id s
  | .storeStatus n id => Sys2Proof.Machine.execStoreStatus n id s
  | .driveCompletion bay tag status fp cap => Sys2Proof.Machine.execDriveCompletion bay tag status fp cap s
  | .driveDataFrame bay tag payload => Sys2Proof.Machine.execDriveDataFrame bay tag payload s
  | .driveReady bay => Sys2Proof.Machine.execDriveReady bay s
  | .identifyAnswer bay status fp cap => Sys2Proof.Machine.execIdentifyAnswer bay status fp cap s
  | .driveLinkLoss bay => Sys2Proof.Machine.execDriveLinkLoss bay s
  | .presenceChange bay level => Sys2Proof.Machine.execPresenceChange bay level s
  | .insertion bay => Sys2Proof.Machine.execInsertion bay s
  | .removal bay => Sys2Proof.Machine.execRemoval bay s
  | .linkTrainingComplete n => Sys2Proof.Machine.execLinkTrainingComplete n s
  | .nodeLinkLoss n => Sys2Proof.Machine.execNodeLinkLoss n s
  | .tick => Sys2Proof.Machine.execTick s
  | .referenceLost => Sys2Proof.Machine.execReferenceLost s
  | .referenceQualified => Sys2Proof.Machine.execReferenceQualified s
  | .referenceRegained => Sys2Proof.Machine.execReferenceRegained s
  | .lapseDeadline n => Sys2Proof.Machine.execLapseDeadline n s
  | .expiryDeadline n => Sys2Proof.Machine.execExpiryDeadline n s
  | .graceEnd => Sys2Proof.Machine.execGraceEnd s
  | .gatherDeadline n => Sys2Proof.Machine.execGatherDeadline n s
  | .drainDeadline slot => Sys2Proof.Machine.execDrainDeadline slot s
  | .handingDrainDeadline slot => Sys2Proof.Machine.execHandingDrainDeadline slot s
  | .bringupDeadline bay => Sys2Proof.Machine.execBringupDeadline bay s
  | .resetDeadline bay => Sys2Proof.Machine.execResetDeadline bay s
  | .probeDeadline => Sys2Proof.Machine.execProbeDeadline s
  | .storeWriteDone => Sys2Proof.Machine.execStoreWriteDone s
  | .storeWriteFailed => Sys2Proof.Machine.execStoreWriteFailed s
  | .resetAssert => Sys2Proof.Machine.execResetAssert s
  | .resetRelease => Sys2Proof.Machine.execResetRelease s
  | .powerOn => Sys2Proof.Machine.execPowerOn s
  | .powerFail => Sys2Proof.Machine.execPowerFail s

end Sys2Proof.Machine
end

