-- ==== Sys2Proof/Safety.lean ====
section
/-! DEFINITION. The terms claims are made in: when a port takes a request, what an answer is, what the
arbiter, the store and the end of a commit owe, and what the spec says always holds of each record. -/

namespace Sys2Proof

/-! ### Kinds of commands -/

/-- The events of power and the reset input (R160, R163). -/
def Instr.ofPower : Instr → Bool
  | .resetAssert | .resetRelease | .powerOn | .powerFail => true
  | _ => false

/-- The node whose port must be UP for the command to be taken: a CMD, a DATA, or a REQ other than
RESUME (R150, R153). -/
def Instr.sender : Instr → Option Node
  | .cmd n _ _ _ _ _ _ | .data n _ _ _ | .protocolFault n _ | .badRequest n _ | .identify n _
  | .linkStatus n _ | .heartbeat n _ _ _ _ | .leave n _ | .slotStatus n _ _ | .claimFree n _ _
  | .release n _ _ | .handover n _ _ | .setSlot n _ _ _ _ _ | .hold n _ _ | .unhold n _ _ | .adopt n _ _
  | .clearFault n _ _ | .resetDrive n _ _ | .take n _ _ | .cancelTake n _ | .batchStatus n _ _
  | .setTiming n _ _ _ _ _ _ | .readReport n _ _ _ | .discardReport n _ _ | .setWindow n _ _ _ _ _ _
  | .clearWindow n _ _ | .windowStatus n _ | .startAudit n _ _ _ _ _ | .stepAudit n _ | .stopAudit n _
  | .auditStatus n _ | .fetchNotices n _ | .setNotices n _ _ _ | .readSummary n _ | .storeStatus n _ =>
    some n
  | _ => none

/-- The commands that may change a slot record. -/
def Instr.movesSlots : Instr → Bool
  | .heartbeat _ _ _ _ _ | .leave _ _ | .claimFree _ _ _ | .release _ _ _ | .handover _ _ _
  | .setSlot _ _ _ _ _ _ | .resetDrive _ _ _ | .take _ _ _ | .cancelTake _ _
  | .driveCompletion _ _ _ _ _ | .identifyAnswer _ _ _ _ | .driveLinkLoss _ | .removal _
  | .nodeLinkLoss _ | .expiryDeadline _ | .graceEnd | .gatherDeadline _ | .drainDeadline _
  | .handingDrainDeadline _ | .resetDeadline _ | .storeWriteDone | .storeWriteFailed | .resetRelease
  | .powerOn => true
  | _ => false

end Sys2Proof

namespace Sys2Proof.Machine

/-! ### Requests and their answers -/

/-- The controller runs and the node's port is UP, so that a frame on it is taken (R150, R163). -/
def State.Takes (s : State) (n : Node) : Prop := s.running = true ∧ (s.port n).state = .up

/-- `s` with one RSP more on the node's port, and nothing else changed (R155). -/
def State.answered (s : State) (n : Node) (id : BitVec 16) (code : Byte) (result : Result)
    (data : List Byte) : State :=
  { s with ports := s.ports.put n { s.ports.get n with
      unsent := (s.ports.get n).unsent ++ [.rsp id code result data] } }

/-- `s` with one CPL more on the node's port, and nothing else changed (R47). -/
def State.refused (s : State) (n : Node) (i : Slot) (tag : Byte) (status : CplStatus)
    (detail : BitVec 16) : State :=
  { s with ports := s.ports.put n { s.ports.get n with
      unsent := (s.ports.get n).unsent ++ [.cpl i tag status (s.slot i).generation detail] } }

/-- The CPLs that a list of ended commands of one bay owes a node, in list order. -/
def cplsFor (n : Node) (i : Slot) (status : CplStatus) (g : Gen) (cs : List Command) : List NodeFrame :=
  (cs.filter (fun c => decide (c.node = n))).map (fun c => .cpl i c.tag status g 0)

/-- The bay's arbiter has nothing to serve: no command waits and no probe is requested (R55). -/
def State.Quiet (s : State) (i : Slot) : Prop :=
  (s.engine i).waiting = [] ∧ (s.engine i).probeRequest = false

/-- No slot is handed over or taken over at the bay, so that an event of the bay commits nothing. -/
def State.Still (s : State) (i : Slot) : Prop :=
  (s.slot i).phase ≠ .handing ∧ (s.slot i).phase ≠ .draining

/-- The update a commit of the slot queues, with the bay's recorded fingerprint (R7, R159). -/
def State.commitUpdate (s : State) (i : Slot) (owner : Owner) : Update :=
  { slot := i, owner := owner, generation := succGen (s.slot i).generation
    fingerprint := (s.bay i).recorded, commitWaits := true }

/-- The FREE drive tags in ascending order (R45). -/
def freeTags (ts : List TagEntry) : List DriveTag :=
  (List.finRange 32).filter (fun k => decide (k ∉ ts.map TagEntry.tag))

/-- R159, R160: the store takes an update. In READY with nothing queued its write starts; in WRITING it is
appended at the tail, or takes over the place and the waiting parties of a waiting update of its slot. -/
def Store.Accepts (st : Store) (u : Update) (now : Tick) (after : Store) : Prop :=
  (st.mode = .ready ∧ st.queue = [] ∧ after = { st with mode := .writing u 1 now }) ∨
  ((∃ v k d, st.mode = .writing v k d) ∧
    (((∀ w ∈ st.queue, w.slot ≠ u.slot) ∧ after = { st with queue := st.queue ++ [u] }) ∨
     ∃ before w rest, st.queue = before ++ w :: rest ∧ (∀ v ∈ before, v.slot ≠ u.slot) ∧ w.slot = u.slot ∧
      after = { st with
        queue := before ++ { u with commitWaits := u.commitWaits || w.commitWaits } :: rest }))

/-- R55, R56: the arbiter of a READY bay has served the waiting commands of the engine `e`, in list order to
the FREE tags in ascending order until either ran out, and sent `first` and then a command frame for each. -/
def State.Serves (s : State) (i : Slot) (e : Engine) (first : List DriveFrame) (t : State) : Prop :=
  t.engine i = { e with
    waiting := e.waiting.drop (freeTags e.tags).length
    tags := e.tags ++ (e.waiting.zip (freeTags e.tags)).map (fun x => ⟨x.2, .active x.1 s.now⟩) } ∧
  t.driveOut[i] = s.driveOut[i] ++ first ++
    (e.waiting.zip (freeTags e.tags)).map (fun x => .command x.2 x.1.kind x.1.lba x.1.count)

/-- R9, R95, R108: the store has answered the commit of the COMMITTING slot, whose new owner is not gone. The
slot rests, and the path's results are raised. CLAIM: the reply that is awaited, sent on an UP port, and
SLOT_TAKEN; RELEASE: SLOT_RELEASED to both nodes; HANDOVER: SLOT_HANDED to both. TAKEOVER: the member takes
its final status, the report of a slot taken from the partner becomes FINAL, SLOT_TAKEN goes to the claimant
and SLOT_LOST to the partner, and the running batch ends with its last member (R96), where no slot is marked
auto-pending for the claimant. -/
def State.CommitEnds (s : State) (i : Slot) (stored : Bool) (t : State) : Prop :=
  ∀ (r : SlotRec) (u : State), r = s.slot i →
    u = s.setSlot i { r with
      phase := if r.owner.isSome then .owned else .unowned, target := none, path := none, batch := none
      drainDeadline := none, former := none } →
    (∀ n, r.path = some .claim → r.owner = some n → s.gone n = false →
      ∀ own others, own = (s.port n).awaiting.filter (fun w => decide (w.slot = i)) →
        others = (s.port n).awaiting.filter (fun w => decide (w.slot ≠ i)) →
        (own = [] → t = u.raise n (some i) (.slotTaken r.generation stored)) ∧
        (∀ id, own = [{ id := id, slot := i }] → t = (u.setPort n { s.port n with
            awaiting := others
            unsent := (s.port n).unsent ++ if (s.port n).state = .up then
              [.rsp id 0x21 .done (genItem r.generation ++ u8 (if stored then 1 else 0))] else [] }).raise n
          (some i) (.slotTaken r.generation stored))) ∧
    (∀ x, r.path = some .release → r.owner = none → r.former = some (some x) →
      t = (u.raise .a (some i) (.slotReleased (some x) r.generation)).raise .b (some i)
        (.slotReleased (some x) r.generation)) ∧
    (∀ n, r.path = some .handover → r.owner = some n → s.gone n = false →
      t = (u.raise .a (some i) (.slotHanded (some n) r.generation)).raise .b (some i)
        (.slotHanded (some n) r.generation)) ∧
    (∀ n m, r.path = some .takeover → r.owner = some n → s.gone n = false →
      (∀ j, (s.slot j).autoPending ≠ some n) → m ∈ (s.batch n).members → m.slot = i →
      ((s.batch n).members.map Member.slot).Nodup →
      ∀ (ms : List Member) (v w : State), ms = (s.batch n).members.map (fun k => if k.slot = i then
          { k with
            status := if (s.bay i).state = .failed then .takenFaulted else .taken
            newGeneration := some r.generation, stored := some stored }
        else k) →
      v = u.setBatch n { s.batch n with members := ms } →
      (m.prior = .unowned ∧ w = v.raise n (some i) (.slotTaken r.generation stored) ∨
        ∃ p, m.prior = .owned ∧ m.oldOwner = some n.partner ∧ s.report i = some p ∧
          w = ((v.setReport i (some { p with
              closing := some { generationAfter := r.generation, stored := stored, commitTick := s.now } })).raise
            n (some i) (.slotTaken r.generation stored)).raise n.partner (some i)
              (.slotLost (some n) r.generation p.entries.length)) →
      ∀ last : Prop, (last ↔ (s.batch n).state = .running ∧ ∀ k ∈ ms, k.status.isFinal = true) →
        (¬last → t = w) ∧
        (last → ∀ o, o = (if ∀ k ∈ ms, k.status ≠ .skippedHeld then BatchOutcome.allTaken
            else .partialTaken) →
          t = (w.setBatch n { s.batch n with
              state := .ended, members := ms, endTick := some s.now, gatherDeadline := none
              outcome := some o }).raise n none
            (.batchEnded (s.batch n).number (s.batch n).origin o (countStatus .taken ms)
              (countStatus .takenFaulted ms) (countStatus .skippedHeld ms)
              (countStatus .droppedOwnerReturned ms) (countStatus .droppedCancelled ms))))

/-- R160, R161: the updates complete one after another, and each ends the commit that waits for it. -/
def State.Complete (stored : Bool) : List Update → State → State → Prop
  | [], s, t => t = s
  | u :: us, s, t => ∃ v : State, (u.commitWaits = false → v = s) ∧
      (u.commitWaits = true → (s.slot u.slot).phase = .committing → s.CommitEnds u.slot stored v) ∧
      State.Complete stored us v t

/-! ### What holds of each record -/

/-- R1: the optional fields are present only in the phases its table names; in COMMITTING the owner is
already the target (R7). A drain deadline is removed in HANDING when it is reached (R19). -/
def SlotRec.Ok (r : SlotRec) : Prop :=
  (r.target.isSome ↔ r.phase = .handing ∨ r.phase = .committing) ∧
  (r.path.isSome ↔ r.phase = .committing) ∧
  (r.batch.isSome ↔ r.phase = .claimed ∨ r.phase = .draining) ∧
  (r.drainDeadline.isSome → r.phase = .draining ∨ r.phase = .handing) ∧
  (r.phase = .draining → r.drainDeadline.isSome) ∧
  (r.phase = .committing → r.target = some r.owner)

/-- R24, R28, R29, R30: which fields of a lease are present in which state, and the ranges of M and S. -/
def Lease.Ok (l : Lease) : Prop :=
  (l.absentCause.isSome ↔ l.state = .absent) ∧ (l.leftGone = true → l.state = .absent) ∧
  (l.expiry.isSome ↔ l.state = .live ∨ l.state = .lapsing) ∧
  (l.basis.isSome ↔ l.state = .live ∨ l.state = .lapsing) ∧
  (l.lapse.isSome → l.state = .live) ∧
  (l.state ≠ .absent → l.grant.isSome) ∧
  (∀ g ∈ l.grant, 1 ≤ g.miss ∧ g.miss ≤ 8 ∧ 221 ≤ g.span ∧ g.span ≤ 1632020 ∧
    (l.state = .live → (l.lapse.isSome ↔ 2 ≤ g.miss)))

/-- The node and node tag of each outstanding command of a bay: waiting, then ACTIVE (R46). -/
def Engine.outstandingTags (e : Engine) : List (Node × Byte) :=
  e.waiting.map (fun c => (c.node, c.tag)) ++ (activeCommands e.tags).map (fun c => (c.node, c.tag))

/-- R44, R45, R51, R5: at most 16 commands wait, no drive tag is used twice, no node has two
outstanding commands with one node tag, and no node has more than 32 outstanding. -/
def Engine.Ok (e : Engine) : Prop :=
  e.waiting.length ≤ 16 ∧ (e.tags.map TagEntry.tag).Nodup ∧ e.outstandingTags.Nodup ∧
  ∀ n, e.outstanding n ≤ 32

/-- R68: the range of an ACTIVE entry is in order and its last clear is absent; an UNUSED entry has
hit count 0. -/
def Window.Ok (w : Window) : Prop :=
  (∀ a ∈ w.active, a.first.toNat ≤ a.last.toNat ∧ w.lastClear = none) ∧ (w.active = none → w.hits = 0)

/-- R112, R117, R121: which fields of a bay are present in which state. -/
def Bay.Ok (b : Bay) : Prop :=
  (b.capacity.isSome ↔ b.state = .ready ∨ b.state = .suspect) ∧
  (b.presented.isSome ↔ b.state = .suspect) ∧
  (b.bringupDeadline.isSome ↔ b.state = .bringup) ∧
  (b.resetDeadline.isSome ↔ b.state = .resetting) ∧
  (b.resetCause.isSome ↔ b.state = .resetting) ∧
  (b.present = true ↔ b.state ≠ .empty) ∧
  (b.awaits ≠ .nothing ↔ b.state = .bringup ∨ b.state = .resetting)

/-- R142, R143, R145: at most 32 notices, none while they are off; while the controller runs, attention
is asserted exactly while notices are on and one is queued. -/
def NoticeQueue.Ok (running : Bool) (q : NoticeQueue) : Prop :=
  q.queue.length ≤ 32 ∧ (q.on = false → q.queue = []) ∧
  (running = true → (q.attention = true ↔ q.on = true ∧ q.queue ≠ []))

/-- R150, R154: a DOWN port has nothing to send and awaits no reply. -/
def Port.Ok (p : Port) : Prop := p.state = .down → p.awaiting = [] ∧ p.unsent = []

/-- R159 to R161: at most one waiting update for each slot; none waits in READY or FAULTED; a write is
at its first, second or third attempt. -/
def Store.Ok (st : Store) : Prop :=
  (st.queue.map Update.slot).Nodup ∧
  match st.mode with
  | .ready => st.queue = []
  | .writing _ k _ => 1 ≤ k ∧ k ≤ 3
  | .faulted => st.queue = []

/-- R80: each setting lies in its range. -/
def Timing.Ok (t : Timing) : Prop :=
  t.gatherWindow ≤ 1000 ∧ (100 ≤ t.drainBase ∧ t.drainBase ≤ 60000) ∧ t.drainPerCommand ≤ 1000 ∧
  (1000 ≤ t.drainCap ∧ t.drainCap ≤ 120000) ∧ (1000 ≤ t.resetLimit ∧ t.resetLimit ≤ 30000)

/-! ### What holds of the whole state -/

/-- R1. -/
def SlotsOk (s : State) : Prop := ∀ i, (s.slot i).Ok
/-- R24. -/
def LeasesOk (s : State) : Prop := ∀ n, (s.lease n).Ok
/-- R43, R51, and R5 for the quotas. -/
def EnginesOk (s : State) : Prop :=
  ∀ i, (s.engine i).Ok ∧ ∀ n, (s.slot i).quota.get n ≤ 32
/-- R68. -/
def WindowsOk (s : State) : Prop := ∀ k, (s.window k).Ok
/-- R112. -/
def BaysOk (s : State) : Prop := ∀ i, (s.bay i).Ok
/-- R142. -/
def NoticesOk (s : State) : Prop := ∀ n, (s.notice n).Ok s.running
/-- R150. -/
def PortsOk (s : State) : Prop := ∀ n, (s.port n).Ok
/-- R159. -/
def StoreOk (s : State) : Prop := s.store.Ok
/-- R76: the slot of each ACTIVE window has a recorded owner. -/
def WindowsOwned (s : State) : Prop := ∀ k a, (s.window k).active = some a → (s.slot a.slot).owner.isSome
/-- R80. -/
def TimingOk (s : State) : Prop := s.timing.Ok

end Sys2Proof.Machine
end

