-- ==== Sys2Proof/Certificates/Slice0/Obligations.lean ====
section
/-! DEFINITION. The statements for the provers. Each says under which hypotheses on the state and the
operands a command answers a next state, and which one. -/

section

open Sys2Proof Sys2Proof.Machine

/-! ### The step and the whole machine -/

/-- A step takes the front command and runs it on the state with the queue's rest. -/
def Obligations.StepTakesTheFrontCommand : Prop :=
  ∀ (s : State) (c : Instr) (rest : List Instr), s.pending = c :: rest →
    step s = exec c { s with pending := rest }

/-- The model's choice (logs 6, 34 and 37): with no command waiting, a running controller's node links and drive
links each carry their oldest produced frame away, and one that is off or held in reset idles. -/
def Obligations.IdleStepSendsOneFrameOnEachLink : Prop :=
  ∀ s : State, s.pending = [] →
    (s.running = false → step s = .next s) ∧
    (s.running = true → ∃ t, step s = .next t ∧
      (∀ n, t.port n = { s.port n with unsent := (s.port n).unsent.drop 1 }) ∧
      (∀ i : Slot, t.driveOut[i] = s.driveOut[i].drop 1) ∧
      { t with ports := s.ports, driveOut := s.driveOut } = s)

/-- Every command is answered with a next state; none touches the waiting commands, and only the events
of power and the reset input change whether the controller runs. -/
def Obligations.EveryCommandGoesOn : Prop :=
  ∀ (c : Instr) (s : State), ∃ t, exec c s = .next t ∧ t.pending = s.pending ∧
    (c.ofPower = false → t.power = s.power)

/-- Off or held in reset, the controller takes no frame and no event: only the level of a presence pin and
the events of power and reset change anything (log 22). A CMD, a DATA, a request other than RESUME or a
structural fault on a port that is not UP changes nothing and is not answered; neither does a
HALTED_FRAME_DISCARD in any state (log 14). -/
def Obligations.WhatIsClosedTakesNothing : Prop :=
  (∀ (c : Instr) (s : State), s.running = false → c.ofPower = false →
      (∀ i level, c ≠ .presenceChange i level) → exec c s = .next s) ∧
  (∀ (c : Instr) (n : Node) (s : State),
      (c.sender = some n → (s.port n).state ≠ .up → exec c s = .next s) ∧
      ∀ f, exec (.haltedFrameDiscard n f) s = .next s)

/-- The machine after reset meets every predicate of Safety.lean, and no window is ACTIVE. -/
def Obligations.InvariantsHoldAtReset : Prop :=
  SlotsOk State.reset ∧ LeasesOk State.reset ∧ EnginesOk State.reset ∧ WindowsOk State.reset ∧
  BaysOk State.reset ∧ NoticesOk State.reset ∧ PortsOk State.reset ∧ StoreOk State.reset ∧
  TimingOk State.reset ∧ ∀ k, (State.reset.window k).active = none

/-- Every step keeps the presence rules of the slot, bay and lease records, and the ranges of M and S. -/
def Obligations.StepKeepsSlotBayAndLeaseRecords : Prop :=
  (∀ s t : State, step s = .next t → (SlotsOk s → SlotsOk t) ∧ (BaysOk s → BaysOk t)) ∧
  (∀ s t : State, step s = .next t → LeasesOk s → LeasesOk t)

/-- Every step keeps, at each bay: at most 16 waiting commands, one use of each drive tag, one
outstanding command for each node and node tag, and at most 32 outstanding commands of a node. -/
def Obligations.StepKeepsEngines : Prop :=
  ∀ s t : State, step s = .next t → EnginesOk s → EnginesOk t

/-- Every step keeps each notice queue at 32 notices or fewer, empty while notices are off, with the
attention output following the queue. -/
def Obligations.StepKeepsNoticeQueues : Prop :=
  ∀ s t : State, step s = .next t → NoticesOk s → NoticesOk t

/-- Every step keeps the update queue, the window records, the DOWN ports and the timing ranges. Every step
keeps: the slot of each ACTIVE window has a recorded owner. -/
def Obligations.StepKeepsStoreWindowsPortsTiming : Prop :=
  (∀ s t : State, step s = .next t →
      (StoreOk s → StoreOk t) ∧ (WindowsOk s → WindowsOk t) ∧ (PortsOk s → PortsOk t) ∧
      (TimingOk s → TimingOk t)) ∧
  (∀ s t : State, step s = .next t → WindowsOwned s → WindowsOwned t)

/-- A command that is none of `Instr.movesSlots` leaves every slot record as it is: no read, no
admission, no audit, no notice request and no bay event but those named changes an owner, a
generation, a phase, a policy or a quota. -/
def Obligations.OnlyNamedCommandsChangeSlotRecords : Prop :=
  ∀ (c : Instr) (s t : State), c.movesSlots = false → exec c s = .next t → t.slots = s.slots

/-! ### Arithmetic and the fence -/

/-- R27: the grade, with the flags CLAMPED and ROUNDED. -/
def Obligations.GradeIsTheLargestNotAbove : Prop :=
  ∀ p : Nat,
    (20 ≤ p → gradeMs (gradeIndex p) ≤ p ∧ ∀ i : Fin 10, gradeMs i ≤ p → gradeMs i ≤ gradeMs (gradeIndex p)) ∧
    (p < 20 → gradeMs (gradeIndex p) = 20 ∧ gradeClamped p = true ∧ gradeRounded p = true) ∧
    (20000 < p → gradeMs (gradeIndex p) = 20000 ∧ gradeRounded p = true) ∧
    (20 ≤ p → gradeClamped p = false) ∧
    (gradeRounded p = true ↔ p ≠ gradeMs (gradeIndex p)) ∧
    (List.finRange 10).map gradeMs = [20, 50, 100, 200, 500, 1000, 2000, 5000, 10000, 20000]

/-- The drain limit D is the least of (B + P × n) × 10 and C × 10, is at least 1,000 ticks and at most
1,200,000 with settings in range, and never falls as n rises. The span of every heartbeat lies between 221
and 1,632,020 ticks, is 20 ticks more than the product rounded up, and a lapse deadline falls before its
expiry deadline. -/
def Obligations.DrainLimitsAndSpansStayInRange : Prop :=
  (∀ (t : Timing) (n m : Nat), t.Ok → n ≤ m →
      (drainLimit t n = (t.drainBase + t.drainPerCommand * n) * 10 ∨ drainLimit t n = t.drainCap * 10) ∧
      drainLimit t n ≤ (t.drainBase + t.drainPerCommand * n) * 10 ∧ drainLimit t n ≤ t.drainCap * 10 ∧
      1000 ≤ drainLimit t n ∧ drainLimit t n ≤ 1200000 ∧ drainLimit t n ≤ drainLimit t m) ∧
  (∀ (i : Fin 10) (m : Nat) (src : Source), 1 ≤ m → m ≤ 8 →
      ∀ x S : Nat, x = gradeMs i * 10 * m * (1000000 + tolerance src) →
        S = spanTicks (gradeMs i) m (tolerance src) →
        221 ≤ S ∧ S ≤ 1632020 ∧ x ≤ (S - 20) * 1000000 ∧ (S - 20) * 1000000 < x + 1000000 ∧
        (2 ≤ m → gradeMs i * 10 + 20 < S))

/-- The fence leaves the old owner nothing outstanding and the partner what it had, turns each ACTIVE
entry of the old owner into an ORPHANED one, and the report gets one entry for each command fenced. -/
def Obligations.FenceLeavesNothingOutstanding : Prop :=
  ∀ (e : Engine) (x : Node),
    (e.fence x).outstanding x = 0 ∧
    (e.fence x).outstanding x.partner = e.outstanding x.partner ∧
    (e.fence x).orphans = e.orphans + (e.tags.filter (TagEntry.activeOf x)).length ∧
    (e.fence x).tags.length = e.tags.length ∧
    (e.fenceEntries x).length = e.outstanding x

/-! ### Frames on the node link -/

/-- A CMD frame laid out as chapter 12 says, with its CRC, is read on an UP port as that CMD, whatever
its operands. -/
def Obligations.CmdFrameReadsBack : Prop :=
  ∀ (n : Node) (i : Slot) (tag kind : Byte) (gen : Gen) (lba : Lba) (count : BitVec 16),
    commandOfFrame .up n (frameBytes 1 i.val
      (u8 tag.toNat ++ u8 kind.toNat ++ u16 gen.toNat ++ u48 lba.toNat ++ u16 count.toNat)) =
    some (.cmd n i tag kind gen lba count)

/-- The checks of an arriving frame. A frame that fails the integrity check is counted on an UP or HALTED
port; an intact frame that fails a structure check halts an UP port and is recorded; a REQ that is no
request of the catalog is answered BAD_REQUEST with its id and code. -/
def Obligations.ArrivingFramesAreChecked : Prop :=
  ∀ (s : State) (n : Node) (f : List Byte),
    (s.running = true → (s.port n).state ≠ .down → frameIntact f = false →
      exec (.crcCheckFailed n f) s =
        .next (s.setPort n { s.port n with checkErrors := satInc (s.port n).checkErrors })) ∧
    (∀ k, s.Takes n → frameIntact f = true → structureFault f = some k →
      exec (.protocolFault n f) s = .next (s.setPort n { s.port n with
        state := .halted, lastFault := some { kind := k, classByte := f.getD 0 0, tick := s.now } })) ∧
    (s.Takes n → frameIntact f = true → structureFault f = none → f.getD 0 0 = 3 →
      requestIn n f = none →
      exec (.badRequest n f) s = .next (s.answered n (requestId f) (requestCode f) .badRequest []))

/-- RESUME in HALTED returns the port to UP with DONE and the last fault; in UP it is WRONG_STATE. Training
opens a DOWN port with nothing awaited. A link loss closes an UP or HALTED port, discards what was not sent
and counts the CPLs and DATA frames among it; the node's lease runs on, or, when it is live with fast-expiry
set, expires at once. The node's batch does not gather, its partner's lease is not live and it runs no
sweep. The presence byte of the last fault in RESUME's reply is the model's reading (log 9). -/
def Obligations.PortsReopenTrainAndClose : Prop :=
  (∀ (s : State) (n : Node) (id : BitVec 16), s.running = true →
      ((s.port n).state = .halted →
        exec (.resume n id) s = .next ((s.setPort n { s.port n with state := .up }).answered n id 0x02 .done
          (lastFaultItem (s.port n).lastFault))) ∧
      ((s.port n).state = .up →
        exec (.resume n id) s = .next (s.answered n id 0x02 .wrongState
          (lastFaultItem (s.port n).lastFault)))) ∧
  (∀ (s : State) (n : Node), s.running = true →
      ((s.port n).state = .down →
        exec (.linkTrainingComplete n) s =
          .next (s.setPort n { s.port n with state := .up, awaiting := [] })) ∧
      ((s.port n).state ≠ .down → s.sweep.runsFor n = false →
        ∀ p : Port, p = { s.port n with
          state := .down, awaiting := [], unsent := []
          discardedCpl := satAdd (s.port n).discardedCpl ((s.port n).unsent.filter NodeFrame.isCpl).length
          droppedData := satAdd (s.port n).droppedData ((s.port n).unsent.filter NodeFrame.isData).length } →
        ((s.lease n).fastExpiry = false ∨ s.live n = false →
          exec (.nodeLinkLoss n) s = .next (s.setPort n p)) ∧
        ((s.lease n).fastExpiry = true → s.live n = true → (s.batch n).state ≠ .gathering →
          s.live n.partner = false →
          exec (.nodeLinkLoss n) s = .next (((s.setPort n p).setLease n { s.lease n with
            state := .expired, lapse := none, expiry := none, basis := none }).raise n.partner none
              (.partnerExpired .expired ((s.lease n).grant.map Grant.lastHeartbeat))))))

/-- IDENTIFY, SLOT_STATUS, WINDOW_STATUS, BATCH_STATUS, AUDIT_STATUS and STORE_STATUS are answered DONE at
once with the values of the event, whatever the lease, and change nothing: IDENTIFY with the vendor, part and
revision codes, the bay count and the tick counter. LINK_STATUS clears the three counts and the last fault it
reports. BATCH_STATUS of a byte that names no node is BAD_REQUEST. The widths and presence bytes of the
replies, the 2 bytes of the vendor and part codes among them, are the model's choice (log 9). -/
def Obligations.StatusRequestsReport : Prop :=
  ∀ (s : State) (n : Node) (id : BitVec 16), s.Takes n →
    exec (.identify n id) s = .next (s.answered n id 0x01 .done
      (u16 0x5651 ++ u16 0x0742 ++ u8 0x01 ++ u8 8 ++ tickItem s.time.tick)) ∧
    (∀ i, exec (.slotStatus n id i) s = .next (s.answered n id 0x20 .done (slotStatusReply s i))) ∧
    (∀ x, exec (.batchStatus n id (BitVec.ofNat 8 (nodeCode x))) s =
      .next (s.answered n id 0x32 .done (batchStatusReply s x))) ∧
    (∀ w : Byte, 1 < w.toNat →
      exec (.batchStatus n id w) s = .next (s.answered n id 0x32 .badRequest [])) ∧
    exec (.windowStatus n id) s = .next (s.answered n id 0x42 .done (windowStatusReply s)) ∧
    exec (.auditStatus n id) s = .next (s.answered n id 0x53 .done (auditStatusReply s)) ∧
    exec (.storeStatus n id) s = .next (s.answered n id 0x70 .done (storeStatusReply s.store)) ∧
    exec (.linkStatus n id) s = .next ((s.setPort n { s.port n with
        checkErrors := 0, droppedData := 0, discardedCpl := 0, lastFault := none }).answered n id 0x03 .done
      (u8 1 ++ countItem (s.port n).checkErrors ++ countItem (s.port n).droppedData
        ++ countItem (s.port n).discardedCpl ++ lastFaultItem (s.port n).lastFault))

/-- READ_SUMMARY is answered DONE with the summary, as the set of kinds marked, and the dropped count. At the
same event it clears every summary entry and sets the dropped count to 0, the queue untouched. Of a raise and
a READ_SUMMARY, the raise taken first is reported and then cleared, and the raise taken second stays marked. -/
def Obligations.ReadSummaryReportsAndClears : Prop :=
  ∀ (s : State) (n : Node) (id : BitVec 16), s.Takes n →
    ∀ read : State → State, (∀ v, read v = (v.setNotice n { v.notice n with
        summary := 0, dropped := 0 }).answered n id 0x62 .done
      (u32 (v.notice n).summary.toNat ++ countItem (v.notice n).dropped)) →
    exec (.readSummary n id) s = .next (read s) ∧
    ∀ (slot : Option Slot) (b : NoticeBody),
      exec (.readSummary n id) (s.raise n slot b) = .next (read (s.raise n slot b)) ∧
      ((s.raise n slot b).notice n).summary = (s.notice n).summary ||| ((1 : BitVec 32) <<< b.code) ∧
      (((read (s.raise n slot b)).notice n).summary = 0) ∧
      (((read s).raise n slot b).notice n).summary = (1 : BitVec 32) <<< b.code

/-! ### Notices -/

/-- What raising a notice other than AUDIT_RESULT to a node does: the summary is marked whatever
follows; off or masked it goes no further; else it is appended below 32, or dropped and counted. That a
set mask bit masks its kind is the model's reading (log 8). -/
def Obligations.RaisedNoticeIsQueuedOrDropped : Prop :=
  ∀ (s : State) (n : Node) (slot : Option Slot) (b : NoticeBody),
    ∀ q : NoticeQueue, q = { s.notice n with
      summary := (s.notice n).summary ||| ((1 : BitVec 32) <<< b.code) } →
    ((s.notice n).on = false ∨ (s.notice n).mask.getLsbD b.code = true →
      s.raise n slot b = s.setNotice n q) ∧
    ((s.notice n).on = true → (s.notice n).mask.getLsbD b.code = false →
      ((s.notice n).queue.length < 32 → s.raise n slot b = s.setNotice n { q with
        queue := q.queue ++ [{ slot := slot, tick := s.now, body := b }], attention := true }) ∧
      (32 ≤ (s.notice n).queue.length → s.raise n slot b = s.setNotice n { q with
        dropped := satInc q.dropped }))

/-- FETCH_NOTICES hands over the oldest notices, 8 at most, and deasserts attention when none is left,
while no sweep is PAUSED_FULL. Of a PAUSED_FULL sweep of the node it appends the held result and the sweep
goes on, here to PAUSED_STEP at the next slot; the reply counts the notices left after that append (log 11,
the model's reading). SET_NOTICES replaces enable and mask; turning notices off empties the queue, counts
what it held in its reply and ends the node's sweep NOTICES_OFF, whose AUDIT_ENDED marks only the summary;
that the current slot leaves the ended sweep's record is the model's choice (log 35). -/
def Obligations.NoticesAreFetchedAndSet : Prop :=
  ∀ (s : State) (n : Node) (id : BitVec 16), s.Takes n →
    (s.sweep.state ≠ .pausedFull →
      exec (.fetchNotices n id) s = .next ((s.setNotice n { s.notice n with
          queue := (s.notice n).queue.drop 8
          attention := (s.notice n).attention && !((s.notice n).queue.drop 8).isEmpty }).answered n id 0x60
        .done (listItem noticeRecord ((s.notice n).queue.take 8)
          ++ u8 ((s.notice n).queue.length - 8)))) ∧
    (∀ w r i, s.sweep.state = .pausedFull → s.sweep.run = some w → w.requester = n →
      s.sweep.holder = some r → s.sweep.current = some i → (s.notice n).queue ≠ [] →
      w.mode = .stepped → i ≠ w.last → w.budget = 0 →
      exec (.fetchNotices n id) s = .next (((s.setNotice n { s.notice n with
          queue := (s.notice n).queue.drop 8 ++
            [{ slot := some r.slot, tick := r.tick
               body := .auditResult r.outcome r.owner r.generation r.phase r.bayState }]
          attention := true }).setSweep { s.sweep with
          state := .pausedStep, holder := none, current := some (i + 1)
          run := some { w with issued := satInc w.issued } }).answered n id 0x60
        .done (listItem noticeRecord ((s.notice n).queue.take 8)
          ++ u8 ((s.notice n).queue.length - 8 + 1)))) ∧
    (∀ mask, (s.notice n).on = true →
      exec (.setNotices n id 1 mask) s = .next ((s.setNotice n { s.notice n with
          mask := mask &&& 0x000FFFFE }).answered n id 0x61 .done
        (u8 1 ++ u32 (mask &&& 0x000FFFFE).toNat ++ u8 0))) ∧
    (∀ mask, (s.notice n).on = false →
      exec (.setNotices n id 1 mask) s = .next ((s.setNotice n { s.notice n with
          on := true, mask := mask &&& 0x000FFFFE, queue := [], attention := false }).answered n id 0x61
        .done (u8 1 ++ u32 (mask &&& 0x000FFFFE).toNat ++ u8 0))) ∧
    (∀ mask, s.sweep.runsFor n = false →
      exec (.setNotices n id 0 mask) s = .next ((s.setNotice n { s.notice n with
          on := false, mask := mask &&& 0x000FFFFE, queue := [], attention := false }).answered n id 0x61
        .done (u8 0 ++ u32 (mask &&& 0x000FFFFE).toNat
          ++ u8 (if (s.notice n).on then (s.notice n).queue.length else 0)))) ∧
    (∀ mask w, (s.notice n).on = true → s.sweep.state ≠ .idle → s.sweep.run = some w →
      w.requester = n →
      ∃ t, exec (.setNotices n id 0 mask) s = .next t ∧
        t.notice n = { s.notice n with
          on := false, mask := mask &&& 0x000FFFFE, queue := [], attention := false
          summary := (s.notice n).summary ||| 0x10000 } ∧
        t.sweep = { s.sweep with
          state := .idle, current := none, probe := none, holder := none
          ended := some (.noticesOff, s.now) } ∧
        (t.port n).unsent = (s.port n).unsent ++ [.rsp id 0x61 .done
          (u8 0 ++ u32 (mask &&& 0x000FFFFE).toNat ++ u8 (s.notice n).queue.length)] ∧
        t.slots = s.slots ∧ t.bays = s.bays) ∧
    (∀ (e : Byte) mask, 1 < e.toNat →
      exec (.setNotices n id e mask) s = .next (s.answered n id 0x61 .badRequest []))

/-! ### Leases and the timebase -/

/-- A HEARTBEAT with a period and a good fast-expiry byte makes the sender's lease LIVE with the grade,
M and S of R27 to R29 and the deadlines of R30, empties its lost set, is answered DONE, and tells the
partner if the lease was EXPIRED or ABSENT. The partner's batch does not gather. Otherwise the request
is BAD_REQUEST and the lease is not touched. The widths in the reply are the model's reading (log 9). -/
def Obligations.HeartbeatMakesTheLeaseLive : Prop :=
  ∀ (s : State) (n : Node) (id period : BitVec 16) (miss fast : Byte), s.Takes n →
    (period = 0 ∨ 1 < fast.toNat →
      exec (.heartbeat n id period miss fast) s = .next (s.answered n id 0x10 .badRequest [])) ∧
    (period ≠ 0 → fast.toNat ≤ 1 → (s.batch n.partner).state ≠ .gathering →
      ∀ (m span : Nat) (l : Lease) (data : List Byte),
        m = min 8 (max 1 miss.toNat) →
        span = spanTicks (gradeMs (gradeIndex period.toNat)) m
          (match s.time.source with | .reference => 200 | .fallback => 20000) →
        l = { state := .live, absentCause := none
              grant := some { grade := gradeIndex period.toNat, miss := m, span := span,
                              lastHeartbeat := s.now }
              fastExpiry := decide (fast = 1)
              lapse := if 2 ≤ m then some (s.now + BitVec.ofNat 32
                (gradeMs (gradeIndex period.toNat) * 10 + 20)) else none
              expiry := some (s.now + BitVec.ofNat 32 span)
              basis := some s.time.source, lost := 0, leftGone := false } →
        data = heartbeatReply (s.lease n) l (s.lease n.partner) period.toNat miss.toNat s.time.source
          s.time.grace s.now →
        exec (.heartbeat n id period miss fast) s = .next
          (let t := (s.setLease n l).answered n id 0x10 .done data
           if (s.lease n).state = .expired ∨ (s.lease n).state = .absent then
             t.raise n.partner none (.partnerReturned (s.lease n).state
               (if (s.lease n).state = .absent then (s.lease n).absentCause else none)
               (gradeIndex period.toNat) m (s.now + BitVec.ofNat 32 span))
           else t))

/-- A heartbeat of a node drops its slots from its partner's gathering batch: each GATHERED member whose old
owner it is becomes DROPPED_OWNER_RETURNED and its CLAIMED slot goes back to the prior phase. Every other
member and slot stands, and with a member left that is not final, one that was UNOWNED for example, the batch
goes on gathering under its deadline. With every member final it ends with NONE_TAKEN; no slot then carries an
auto-pending mark for the claimant. -/
def Obligations.ReturnedOwnerLeavesTheGatheringBatch : Prop :=
  ∀ (s : State) (x : Node) (id period : BitVec 16) (miss fast : Byte), s.Takes x → period ≠ 0 →
    fast.toNat ≤ 1 → (s.batch x.partner).state = .gathering →
    ((s.batch x.partner).members.map Member.slot).Nodup →
    ∀ dropped : Member → Prop, (∀ m, dropped m ↔ m ∈ (s.batch x.partner).members ∧
      m.status = .gathered ∧ m.oldOwner = some x) →
    (∀ m, dropped m → (s.slot m.slot).phase = .claimed ∧ (s.slot m.slot).batch = some x.partner) →
    ∀ ms : List Member, ms = (s.batch x.partner).members.map (fun m =>
      if m.status = .gathered ∧ m.oldOwner = some x then { m with status := .droppedOwnerReturned } else m) →
    ∀ goesOn : Prop, (goesOn ↔ ∃ m ∈ (s.batch x.partner).members, ¬dropped m ∧ m.status.isFinal = false) →
    (¬goesOn → ∀ i, (s.slot i).autoPending ≠ some x.partner) →
    ∃ t, exec (.heartbeat x id period miss fast) s = .next t ∧ (t.lease x).state = .live ∧
      (∀ m, dropped m → t.slot m.slot = { s.slot m.slot with
        phase := m.prior.phase, target := none, path := none, batch := none, drainDeadline := none }) ∧
      (∀ i, (∀ m, dropped m → m.slot ≠ i) → t.slot i = s.slot i) ∧
      (goesOn → t.batch x.partner = { s.batch x.partner with members := ms }) ∧
      (¬goesOn → t.batch x.partner = { s.batch x.partner with
        state := .ended, members := ms, outcome := some .noneTaken, endTick := some s.now
        gatherDeadline := none }) ∧
      t.batch x = s.batch x ∧
      t.engines = s.engines ∧ t.bays = s.bays ∧ t.store = s.store ∧ t.windows = s.windows

/-- LEAVE is answered DONE with the lease state before it. A lease that is not live becomes ABSENT with
cause LEFT and no notice is raised. From EXPIRED the node stays gone: by R25 once the grace has ended, and
while it runs only for the deferred claim of R99, the model's choice (log 33). A live one loses its
deadlines too and the partner is told; the node's batch does not gather, it runs no sweep, and the grace
runs or the partner's lease is not live, so that nothing is claimed. A lapse deadline reached by a LIVE
lease makes it LAPSING and tells the partner. An expiry deadline reached by a live lease makes it EXPIRED,
removes its deadlines and tells the partner; here the node's batch does not gather, it runs no sweep and its
partner's lease is not live. A deadline that is not now changes nothing (log 5). -/
def Obligations.LeaveLapseAndExpiryTellThePartner : Prop :=
  (∀ (s : State) (n : Node) (id : BitVec 16), s.Takes n →
      ∀ t : State, t = s.answered n id 0x11 .done (u8 (leaseCode (s.lease n).state)) →
      (s.live n = false → exec (.leave n id) s =
        .next (t.setLease n { s.lease n with
          state := .absent, absentCause := some .left
          leftGone := decide ((s.lease n).state = .expired) || (s.lease n).leftGone })) ∧
      ((s.lease n).state = .expired → ∀ u, exec (.leave n id) s = .next u →
        u.staysGone n = true ∧ u.gone n = !s.time.grace) ∧
      (s.live n = true → (s.batch n).state ≠ .gathering → s.sweep.runsFor n = false →
        (s.time.grace = true ∨ s.live n.partner = false) →
        exec (.leave n id) s = .next ((t.setLease n { s.lease n with
            state := .absent, absentCause := some .left, lapse := none, expiry := none, basis := none }).raise
          n.partner none (.partnerExpired .left ((s.lease n).grant.map Grant.lastHeartbeat))))) ∧
  (∀ (s : State) (n : Node) (g : Grant) (e : Tick), s.running = true → (s.lease n).grant = some g →
      (s.lease n).expiry = some e →
      ((s.lease n).state = .live → (s.lease n).lapse = some s.now →
        exec (.lapseDeadline n) s = .next ((s.setLease n { s.lease n with
          state := .lapsing, lapse := none }).raise n.partner none (.partnerLapsing e g.grade g.miss))) ∧
      ((s.lease n).lapse ≠ some s.now → exec (.lapseDeadline n) s = .next s) ∧
      (s.live n = true → e = s.now → (s.batch n).state ≠ .gathering → s.sweep.runsFor n = false →
        s.live n.partner = false →
        exec (.expiryDeadline n) s = .next ((s.setLease n { s.lease n with
            state := .expired, lapse := none, expiry := none, basis := none }).raise n.partner none
          (.partnerExpired .expired (some g.lastHeartbeat)))) ∧
      (e ≠ s.now → exec (.expiryDeadline n) s = .next s))

/-- An owner becomes gone by an expiry, by a LEAVE after the grace, and by the end of the grace for a node
that is ABSENT. While its partner's lease is live, each claims every OWNED AUTO slot of the node for the partner
and touches no other slot: into a new batch where the partner's is NONE or ENDED; into its gathering batch,
whose deadline restarts; and where its batch runs, each such slot stays OWNED and is marked auto-pending. A
LEAVE while the grace runs claims nothing (O23); the end of the grace then does. -/
def Obligations.GoneOwnersAutoSlotsAreClaimed : Prop :=
  ∀ (s : State) (x : Node) (c : Instr) (st : LeaseState), s.running = true → s.live x.partner = true →
    (c = .expiryDeadline x ∧ st = .expired ∧ s.live x = true ∧ (s.lease x).expiry = some s.now) ∨
      (∃ id, c = .leave x id ∧ st = .absent ∧ s.Takes x ∧ s.live x = true ∧ s.time.grace = false) ∨
      (c = .graceEnd ∧ st = .absent ∧ s.time.grace = true ∧ s.now = 300000 ∧
        (s.lease x).state = .absent) →
    (s.live x = true → (s.batch x).state ≠ .gathering ∧ s.sweep.runsFor x = false) →
    ∀ picked : Slot → Prop, (∀ i, picked i ↔
      (s.slot i).phase = .owned ∧ (s.slot i).owner = some x ∧ (s.slot i).policy = .auto) →
    (∃ i, picked i) →
    ∀ claimed : State → Prop,
    (∀ t, claimed t ↔ (t.lease x).state = st ∧ (t.batch x.partner).state = .gathering ∧
      (t.batch x.partner).gatherDeadline = some (s.now + BitVec.ofNat 32 (s.timing.gatherWindow * 10)) ∧
      (∀ i, picked i → t.slot i = { s.slot i with
          phase := .claimed, batch := some x.partner, target := none, path := none, drainDeadline := none } ∧
        ∃ m ∈ (t.batch x.partner).members, m.slot = i ∧ m.status = .gathered ∧ m.prior = .owned ∧
          m.oldOwner = some x) ∧
      (∀ i, ¬picked i → t.slot i = s.slot i)) →
    (s.timing.gatherWindow ≠ 0 →
      ((s.batch x.partner).state = .noBatch ∨ (s.batch x.partner).state = .ended →
        ∃ t, exec c s = .next t ∧ claimed t ∧ (t.batch x.partner).origin = some .auto ∧
          (t.batch x.partner).number = (s.batch x.partner).number + 1) ∧
      ((s.batch x.partner).state = .gathering →
        ∃ t, exec c s = .next t ∧ claimed t ∧
          (t.batch x.partner).origin = (s.batch x.partner).origin ∧
          (t.batch x.partner).number = (s.batch x.partner).number)) ∧
    ((s.batch x.partner).state = .running →
      ∃ t, exec c s = .next t ∧ (t.lease x).state = st ∧ t.batches = s.batches ∧
        (∀ i, picked i → t.slot i = { s.slot i with autoPending := some x.partner }) ∧
        (∀ i, ¬picked i → t.slot i = s.slot i))

/-- A tick advances the counter by one, modulo 2^32, and under REFERENCE does nothing else: a deadline that
it reaches is taken by a command of its own, the model's choice (log 5). Under FALLBACK it
counts toward the measurement, or restarts it where an interval above 10 µs fell within it, which is a free
value (log 16). A completed measurement makes the source REFERENCE: without a notice at the start-up
qualification, with TIMEBASE REGAINED to both nodes after a loss. At tick 300,000 the grace ends and
GRACE_ENDED goes to both nodes with both lease states. With both leases present nothing else happens; with
both NEVER_SEEN each partner is told and nothing is claimed. -/
def Obligations.TickReferenceAndGraceEnd : Prop :=
  ∀ s : State, s.running = true →
    (s.time.source = .reference →
      exec .tick s = .next { s with time := { s.time with tick := s.time.tick + 1 } }) ∧
    (s.time.source = .fallback → ∃ gap : Bool, exec .tick s = .next { s with
      time := { s.time with
        tick := s.time.tick + 1
        measured := if gap then 0 else min 10000 (s.time.measured + 1) }
      freeCount := s.freeCount + 1 }) ∧
    (s.time.source = .fallback → s.time.measured = 10000 → s.time.qualified = false →
      exec .referenceQualified s = .next { s with time := { s.time with
        source := .reference, qualified := true } }) ∧
    (s.time.source = .fallback → s.time.measured = 10000 → s.time.qualified = true →
      exec .referenceRegained s = .next ((({ s with time := { s.time with source := .reference } } :
        State).raise .a none .timebaseRegained).raise .b none .timebaseRegained)) ∧
    (s.time.measured ≠ 10000 →
      exec .referenceQualified s = .next s ∧ exec .referenceRegained s = .next s) ∧
    (s.time.grace = true → s.time.tick = 300000 →
      ∀ t : State, t = (({ s with time := { s.time with grace := false } } : State).raise .a none
          (.graceEnded (s.lease .a).state (s.lease .b).state)).raise .b none
          (.graceEnded (s.lease .a).state (s.lease .b).state) →
      ((s.lease .a).state ≠ .absent → (s.lease .b).state ≠ .absent → exec .graceEnd s = .next t) ∧
      ((∀ n, (s.lease n).state = .absent ∧ (s.lease n).absentCause = some .neverSeen) →
        exec .graceEnd s = .next ((t.raise .b none (.partnerExpired .neverSeen none)).raise .a none
          (.partnerExpired .neverSeen none))))

/-- The loss of the reference: the source becomes FALLBACK and the measurement starts afresh; each
deadline of a live lease of REFERENCE basis moves to now + ceil(R × 1,020,000 / 1,000,200); TIMEBASE LOST
is raised to both nodes with the number of leases stretched. The measurement as a count is the model's
choice (log 16). -/
def Obligations.ReferenceLossStretchesLeases : Prop :=
  ∀ s : State, s.running = true → s.time.source = .reference →
    ∀ (move : Tick → Tick) (after : Node → Lease) (k : Nat),
      (∀ d, move d = s.now + BitVec.ofNat 32 (((d - s.now).toNat * 1020000 + 1000199) / 1000200)) →
      (∀ n, after n = if s.live n = true ∧ (s.lease n).basis = some .reference then
          { s.lease n with lapse := (s.lease n).lapse.map move, expiry := (s.lease n).expiry.map move,
                           basis := some .fallback }
        else s.lease n) →
      k = (if s.live .a = true ∧ (s.lease .a).basis = some .reference then 1 else 0)
        + (if s.live .b = true ∧ (s.lease .b).basis = some .reference then 1 else 0) →
      exec .referenceLost s = .next
        ((({ s with time := { s.time with source := .fallback, measured := 0 },
                    leases := ⟨after .a, after .b⟩ } : State).raise .a none (.timebaseLost k)).raise .b none
          (.timebaseLost k))

/-! ### Commands and data -/

/-- A CMD that the nine checks pass from the owner is dispatched to the lowest FREE tag at once at a bay with
nothing waiting and no probe requested; with no tag FREE it joins the tail of the waiting list. -/
def Obligations.OwnerCommandIsDispatched : Prop :=
  ∀ (s : State) (n : Node) (i : Slot) (tag : Byte) (k : Kind) (lba : Lba) (count : BitVec 16) (cap : Lba),
    s.Takes n → (s.bay i).state = .ready → (s.bay i).capacity = some cap → s.live n = true →
    (s.slot i).owner = some n → (s.slot i).phase = .owned ∨ (s.slot i).phase = .claimed →
    (k = .write → tripWindow s i lba count = none) →
    (k = .flush → count = 0) →
    (k ≠ .flush → count ≠ 0 ∧ lba.toNat + count.toNat ≤ cap.toNat) →
    tagOutstanding (s.engine i) n tag = false →
    (s.engine i).outstanding n < (s.slot i).quota.get n → (s.engine i).waiting.length < 16 →
    ∀ c : Command, c = { node := n, tag := tag, kind := k, lba := lba, count := count } →
    (∀ d, s.Quiet i → lowestFree (s.engine i).tags = some d →
      exec (.cmd n i tag (BitVec.ofNat 8 (kindCode k)) (s.slot i).generation lba count) s =
        .next ((s.setEngine i { s.engine i with
          tags := (s.engine i).tags ++ [⟨d, .active c s.now⟩] }).toDrive i [.command d k lba count])) ∧
    (lowestFree (s.engine i).tags = none →
      exec (.cmd n i tag (BitVec.ofNat 8 (kindCode k)) (s.slot i).generation lba count) s =
        .next (s.setEngine i { s.engine i with waiting := (s.engine i).waiting ++ [c] }))

/-- The nine admission checks in order. The first five each refuse with their CPL status and detail 0 and
change nothing else: the bay state, the lease, the phase, the owner with its windows, the generation. The last
four refuse an owner's command of the right generation that no TRIP window catches: BAD_COMMAND, TAG_IN_USE,
QUOTA_FULL with the quota as detail, QUEUE_FULL. -/
def Obligations.AdmissionChecksRefuseInOrder : Prop :=
  (∀ (s : State) (n : Node) (i : Slot) (tag kind : Byte) (gen : Gen) (lba : Lba) (count : BitVec 16),
      s.Takes n →
      ∀ answer : CplStatus → Prop, (∀ st, answer st ↔
        exec (.cmd n i tag kind gen lba count) s = .next (s.refused n i tag st 0)) →
      ((s.bay i).state = .empty → answer .slotVacant) ∧
      ((s.bay i).state = .bringup ∨ (s.bay i).state = .resetting → answer .slotBusy) ∧
      ((s.bay i).state = .held → answer .slotHeld) ∧
      ((s.bay i).state = .failed → answer .slotFaulted) ∧
      ((s.bay i).state = .suspect → answer .checkDrive) ∧
      ((s.bay i).state = .ready →
        (s.live n = false → answer .noLease) ∧
        (s.live n = true →
          ((s.slot i).phase = .draining → (s.slot i).owner = some n → answer .fenced) ∧
          ((s.slot i).phase = .draining → (s.slot i).owner ≠ some n → answer .takeoverPending) ∧
          ((s.slot i).phase = .handing ∨ (s.slot i).phase = .committing → answer .takeoverPending) ∧
          ((s.slot i).phase = .unowned ∨ (s.slot i).phase = .owned ∨ (s.slot i).phase = .claimed →
            ((s.slot i).owner ≠ some n → shareWindow s i (kindOf kind) lba count = none → answer .notOwner) ∧
            ((s.slot i).owner ≠ some n → (∃ k, shareWindow s i (kindOf kind) lba count = some k) →
              gen ≠ 0 → gen ≠ (s.slot i).generation → answer .staleGeneration) ∧
            ((s.slot i).owner = some n → (kindOf kind = some .write → tripWindow s i lba count = none) →
              gen ≠ (s.slot i).generation → answer .staleGeneration))))) ∧
  (∀ (s : State) (n : Node) (i : Slot) (tag kind : Byte) (lba : Lba) (count : BitVec 16) (cap : Lba),
      s.Takes n → (s.bay i).state = .ready → (s.bay i).capacity = some cap → s.live n = true →
      (s.slot i).phase = .owned ∨ (s.slot i).phase = .claimed → (s.slot i).owner = some n →
      (kindOf kind = some .write → tripWindow s i lba count = none) →
      ∀ answer : CplStatus → BitVec 16 → Prop, (∀ st d, answer st d ↔
        exec (.cmd n i tag kind (s.slot i).generation lba count) s = .next (s.refused n i tag st d)) →
      (kindOf kind = none → answer .badCommand 0) ∧
      (kindOf kind = some .flush → count ≠ 0 → answer .badCommand 0) ∧
      ((kindOf kind).isSome → kindOf kind ≠ some .flush → count = 0 ∨ cap.toNat < lba.toNat + count.toNat →
        answer .badCommand 0) ∧
      ((kindOf kind = some .flush ∧ count = 0) ∨ ((kindOf kind).isSome ∧ kindOf kind ≠ some .flush ∧
          count ≠ 0 ∧ lba.toNat + count.toNat ≤ cap.toNat) →
        (tagOutstanding (s.engine i) n tag = true → answer .tagInUse 0) ∧
        (tagOutstanding (s.engine i) n tag = false →
          ((s.slot i).quota.get n ≤ (s.engine i).outstanding n →
            answer .quotaFull (BitVec.ofNat 16 ((s.slot i).quota.get n))) ∧
          ((s.engine i).outstanding n < (s.slot i).quota.get n → 16 ≤ (s.engine i).waiting.length →
            answer .queueFull 0))))

/-- Whatever a CMD changes at an engine, the sender had the right to: the bay was READY, its lease live,
the phase admitted it and its quota was not used up. Either it owned the slot at this generation and, with a
WRITE, overlapped no TRIP window of the slot; or it did not own it and a SHARE window of the slot let the
command through: a SHARE_RW window, or a SHARE_READ one for a READ or VERIFY, which holds every block of a
command other than a FLUSH. A CMD changes no slot, lease, bay, batch, report or store record. -/
def Obligations.AdmittedCommandHadTheRight : Prop :=
  ∀ (s t : State) (n : Node) (i : Slot) (tag kind : Byte) (gen : Gen) (lba : Lba) (count : BitVec 16),
    exec (.cmd n i tag kind gen lba count) s = .next t →
    (t.slots = s.slots ∧ t.leases = s.leases ∧ t.bays = s.bays ∧ t.batches = s.batches ∧
      t.reports = s.reports ∧ t.store = s.store ∧ t.time = s.time) ∧
    (∀ j, j ≠ i → t.engine j = s.engine j) ∧
    (t.engine i ≠ s.engine i →
      s.Takes n ∧ (s.bay i).state = .ready ∧ s.live n = true ∧
      ((s.slot i).phase = .unowned ∨ (s.slot i).phase = .owned ∨ (s.slot i).phase = .claimed) ∧
      (s.engine i).outstanding n < (s.slot i).quota.get n ∧
      (((s.slot i).owner = some n ∧ gen = (s.slot i).generation ∧
        (kindOf kind = some .write → ∀ k a, (s.window k).active = some a → a.slot = i → a.kind = .trip →
          lba.toNat + count.toNat ≤ a.first.toNat ∨ a.last.toNat < lba.toNat)) ∨
       ((s.slot i).owner ≠ some n ∧ (gen = 0 ∨ gen = (s.slot i).generation) ∧
        ∃ k a, shareWindow s i (kindOf kind) lba count = some k ∧ (s.window k).active = some a ∧
          a.slot = i ∧
          (a.kind = .shareRw ∨
            a.kind = .shareRead ∧ (kindOf kind = some .read ∨ kindOf kind = some .verify)) ∧
          (kindOf kind ≠ some .flush →
            a.first.toNat ≤ lba.toNat ∧ lba.toNat + count.toNat ≤ a.last.toNat + 1))))

/-- An owner's WRITE that overlaps a TRIP window is refused TRAPPED with the lowest such window as
detail, the window's hit count rises and TRIP_HIT goes to both nodes, whatever the generation carried. A
non-owner's command is admitted through the lowest-numbered SHARE window that admits it: a READ or VERIFY by a
SHARE_READ or SHARE_RW window that contains every block of it, a WRITE by such a SHARE_RW window, a FLUSH by
any SHARE_RW window of the slot. When the later checks pass, that window's hit count rises, and the command
is dispatched to the lowest FREE tag at a bay with nothing waiting and no probe requested, or joins the tail
of the waiting list when no tag is FREE. -/
def Obligations.WindowsTrapAndShare : Prop :=
  ∀ (s : State) (n : Node) (i : Slot) (tag : Byte) (gen : Gen) (lba : Lba) (count : BitVec 16) (w : Fin 4),
    s.Takes n → (s.bay i).state = .ready → s.live n = true →
    (s.slot i).phase = .owned ∨ (s.slot i).phase = .claimed →
    ∀ u : State, u = s.setWindow w { s.window w with hits := satInc (s.window w).hits } →
    ((s.slot i).owner = some n → tripWindow s i lba count = some w →
      exec (.cmd n i tag 2 gen lba count) s = .next
        (((u.refused n i tag .trapped (BitVec.ofNat 16 w.val)).raise .a (some i)
          (.tripHit w tag count (lba.setWidth 32))).raise .b (some i)
          (.tripHit w tag count (lba.setWidth 32)))) ∧
    (∀ (k : Kind) (c : Command) (cap : Lba) (admits : Fin 4 → Prop),
      c = { node := n, tag := tag, kind := k, lba := lba, count := count } →
      (∀ v, admits v ↔ ∃ a, (s.window v).active = some a ∧ a.slot = i ∧
        (k = .flush ∧ a.kind = .shareRw ∨
          k ≠ .flush ∧ (a.kind = .shareRw ∨ a.kind = .shareRead ∧ k ≠ .write) ∧
            a.first.toNat ≤ lba.toNat ∧ lba.toNat + count.toNat ≤ a.last.toNat + 1)) →
      (s.slot i).owner ≠ some n → admits w → (∀ v, v < w → ¬admits v) →
      gen = 0 ∨ gen = (s.slot i).generation → (s.bay i).capacity = some cap →
      (k = .flush → count = 0) → (k ≠ .flush → count ≠ 0 ∧ lba.toNat + count.toNat ≤ cap.toNat) →
      tagOutstanding (s.engine i) n tag = false → (s.engine i).outstanding n < (s.slot i).quota.get n →
      (s.engine i).waiting.length < 16 →
      (∀ d, s.Quiet i → lowestFree (s.engine i).tags = some d →
        exec (.cmd n i tag (BitVec.ofNat 8 (kindCode k)) gen lba count) s =
          .next ((u.setEngine i { s.engine i with
            tags := (s.engine i).tags ++ [⟨d, .active c s.now⟩] }).toDrive i [.command d k lba count])) ∧
      (lowestFree (s.engine i).tags = none →
        exec (.cmd n i tag (BitVec.ofNat 8 (kindCode k)) gen lba count) s =
          .next (u.setEngine i { s.engine i with waiting := (s.engine i).waiting ++ [c] })))

/-- DATA from a node goes to the drive under the tag of its ACTIVE WRITE, and a drive's data frame to the
node of an ACTIVE READ or WRITE; any other is dropped and counted. -/
def Obligations.DataIsRelayedOrDropped : Prop :=
  ∀ (s : State) (i : Slot) (p : List Byte),
    (∀ (n : Node) (tag : Byte), s.Takes n →
      (∀ k, writeTag (s.engine i) n tag = some k →
        exec (.data n i tag p) s = .next (s.toDrive i [.data k p])) ∧
      (writeTag (s.engine i) n tag = none →
        exec (.data n i tag p) s = .next ((s.setEngine i { s.engine i with
            droppedToDrive := satInc (s.engine i).droppedToDrive }).setPort n { s.port n with
            droppedData := satInc (s.port n).droppedData }))) ∧
    (∀ tag : Nat, s.running = true →
      (∀ k c d, (s.engine i).entry tag = some ⟨k, .active c d⟩ → c.kind = .read ∨ c.kind = .write →
        ((s.port c.node).state = .up → exec (.driveDataFrame i tag p) s =
          .next (s.setPort c.node { s.port c.node with
            unsent := (s.port c.node).unsent ++ [.data i c.tag p] })) ∧
        ((s.port c.node).state ≠ .up → exec (.driveDataFrame i tag p) s =
          .next (s.setPort c.node { s.port c.node with
            droppedData := satInc (s.port c.node).droppedData }))) ∧
      ((∀ k c d, (s.engine i).entry tag = some ⟨k, .active c d⟩ → c.kind ≠ .read ∧ c.kind ≠ .write) →
        exec (.driveDataFrame i tag p) s = .next (s.setEngine i { s.engine i with
          droppedFromDrive := satInc (s.engine i).droppedFromDrive })))

/-- The completion of an ACTIVE tag frees it and answers its node, GOOD for status 0, else DRIVE_ERROR
with the status as detail; a CPL for a port that is not UP is counted there. The completion of an
ORPHANED tag of a DRAINING slot with another orphan left frees it, fills its report entry and answers no
node. A FREE tag's completion is counted. -/
def Obligations.CompletionsFreeTheirTag : Prop :=
  ∀ (s : State) (i : Slot) (tag : Nat) (st : BitVec 16) (fp : Fingerprint) (cap : Lba),
    s.running = true → s.Quiet i →
    (∀ k c d, (s.slot i).phase ≠ .handing → (s.engine i).entry tag = some ⟨k, .active c d⟩ →
      ((s.port c.node).state = .up → exec (.driveCompletion i tag st fp cap) s =
        .next ((s.refused c.node i c.tag (if st = 0 then .good else .driveError) st).setEngine i
          { s.engine i with tags := (s.engine i).tags.filter (fun e => decide (e.tag ≠ k)) })) ∧
      ((s.port c.node).state ≠ .up → exec (.driveCompletion i tag st fp cap) s =
        .next ((s.setPort c.node { s.port c.node with
            discardedCpl := satInc (s.port c.node).discardedCpl }).setEngine i
          { s.engine i with tags := (s.engine i).tags.filter (fun e => decide (e.tag ≠ k)) }))) ∧
    (∀ k c d r, (s.slot i).phase = .draining →
      (∃ e ∈ (s.engine i).tags, e.tag ≠ k ∧ e.isOrphan = true) →
      (s.engine i).entry tag = some ⟨k, .orphaned c d⟩ → s.report i = some r →
      exec (.driveCompletion i tag st fp cap) s =
        .next ((s.setReport i (some { r with entries := r.entries.map (fun e =>
            if e.tag = c.tag ∧ e.fate = .pending then
              { e with fate := if st = 0 then .doneGood else .doneError st }
            else e) })).setEngine i
          { s.engine i with tags := (s.engine i).tags.filter (fun e => decide (e.tag ≠ k)) })) ∧
    ((s.engine i).entry tag = none →
      exec (.driveCompletion i tag st fp cap) s = .next (s.setEngine i
        { s.engine i with spurious := satInc (s.engine i).spurious }))

/-- The completion of the last orphan of a DRAINING slot commits the slot to the claimant at that event, and
the completion of the last outstanding command of its owner commits a HANDING slot to its target, whatever
other entries stand in the tag table and whatever commands wait: the owner is the new one, the generation has
advanced, the windows of the slot are cleared and the store takes the update. The orphan's outcome is written
into its report entry and answered to no node; the ACTIVE command is answered to its node with its status, or
counted at a port that is not UP, and that its CPL carries the generation from before the commit is the
model's choice (log 12). The freed tag then serves the commands that wait at a READY bay, where no probe is
requested. -/
def Obligations.LastCompletionCommitsTheSlot : Prop :=
  ∀ (s : State) (i : Slot) (tag : Nat) (st : BitVec 16) (fp : Fingerprint) (cap : Lba) (k : DriveTag)
    (c : Command) (d : Tick), s.running = true →
    ∀ e : Engine, e = { s.engine i with
      tags := (s.engine i).tags.filter (fun x => decide (x.tag ≠ k)) } →
    ∀ committed : Owner → CommitPath → Store → State → Prop, (∀ o path store t, committed o path store t ↔
      t.slot i = { s.slot i with
        phase := .committing, owner := o, generation := succGen (s.slot i).generation
        target := some o, path := some path, batch := none, drainDeadline := none
        autoPending := none, storeLost := false, former := some (s.slot i).owner } ∧
      t.store = store ∧
      (∀ v, t.window v = if (s.window v).onSlot i = true then (s.window v).clear .commit else s.window v) ∧
      ((s.engine i).probeRequest = false →
        ((s.bay i).state = .ready → s.Serves i e [] t) ∧
        ((s.bay i).state ≠ .ready → t.engine i = e ∧ t.driveOut = s.driveOut)) ∧
      t.bays = s.bays ∧ t.notices = s.notices ∧ (∀ j, j ≠ i → t.slot j = s.slot j ∧ t.engine j = s.engine j)) →
    (∀ n store, (s.slot i).phase = .draining → (s.slot i).batch = some n →
      (s.engine i).entry tag = some ⟨k, .orphaned c d⟩ →
      (∀ x ∈ (s.engine i).tags, x.tag ≠ k → x.isOrphan = false) → (s.bay i).state ≠ .resetting →
      s.store.Accepts (s.commitUpdate i (some n)) s.now store →
      ∃ t, exec (.driveCompletion i tag st fp cap) s = .next t ∧ committed (some n) .takeover store t ∧
        t.ports = s.ports ∧
        (∀ r, s.report i = some r → t.report i = some { r with entries := r.entries.map (fun x =>
          if x.tag = c.tag ∧ x.fate = .pending then
            { x with fate := if st = 0 then .doneGood else .doneError st }
          else x) }) ∧
        (∀ m ∈ (t.batch n).members, m.slot = i → m.status = .committing)) ∧
    (∀ o store, (s.slot i).phase = .handing → (s.slot i).target = some o →
      (s.slot i).owner = some c.node → (s.engine i).entry tag = some ⟨k, .active c d⟩ →
      (∀ x ∈ (s.engine i).tags, x.tag ≠ k → x.activeOf c.node = false) →
      (∀ w ∈ (s.engine i).waiting, w.node ≠ c.node) →
      s.store.Accepts (s.commitUpdate i o) s.now store →
      ∃ t, exec (.driveCompletion i tag st fp cap) s = .next t ∧
        committed o (if o.isSome then .handover else .release) store t ∧ t.reports = s.reports ∧
        t.ports = if (s.port c.node).state = .up then
            (s.refused c.node i c.tag (if st = 0 then .good else .driveError) st).ports
          else (s.setPort c.node { s.port c.node with
            discardedCpl := satInc (s.port c.node).discardedCpl }).ports)

/-- The arbiter serves the waiting commands at every event that lets it: the freeing of a tag at a READY bay,
by the completion of an ACTIVE, an ORPHANED or an unexpected PROBE entry that commits no slot, and the return of
the bay to READY with a good identity that fits. The waiting commands are dispatched in list order to the FREE
tags in ascending order until either runs out, each with a command frame to the drive. A present probe request
is served first, at a SUSPECT bay too: it takes the lowest FREE tag, an IDENTIFY goes out under it and the probe
deadline is now + 10,000. In any other bay state nothing is dispatched. -/
def Obligations.FreedTagsAndReadyBaysServeTheWaiting : Prop :=
  ∀ (s : State) (i : Slot), s.running = true →
    (∀ (tag : Nat) (st : BitVec 16) (fp : Fingerprint) (cap : Lba) (k : DriveTag) (role : Role),
      (s.engine i).entry tag = some ⟨k, role⟩ →
      (∃ c d, role = .active c d ∧ (s.slot i).phase ≠ .handing) ∨
        (∃ c d, role = .orphaned c d ∧ ∃ e ∈ (s.engine i).tags, e.tag ≠ k ∧ e.isOrphan = true) ∨
        role = .probe false →
      ∀ e : Engine, e = { s.engine i with
        tags := (s.engine i).tags.filter (fun x => decide (x.tag ≠ k)) } →
      ∃ t, exec (.driveCompletion i tag st fp cap) s = .next t ∧ t.slots = s.slots ∧ t.bays = s.bays ∧
        ((s.engine i).probeRequest = false →
          t.sweep = s.sweep ∧ ((s.bay i).state = .ready → s.Serves i e [] t)) ∧
        (∀ p rest, (s.engine i).probeRequest = true → freeTags e.tags = p :: rest →
          (s.bay i).state = .ready ∨ (s.bay i).state = .suspect →
          ∀ u : Engine, u = { e with probeRequest := false, tags := e.tags ++ [⟨p, .probe true⟩] } →
          t.sweep = { s.sweep with probe := some (.dispatched p (s.now + 10000)) } ∧
          ((s.bay i).state = .ready → s.Serves i u [.identifyTagged p] t) ∧
          ((s.bay i).state = .suspect →
            t.engine i = u ∧ t.driveOut[i] = s.driveOut[i] ++ [.identifyTagged p])) ∧
        ((s.bay i).state ≠ .ready → (s.bay i).state ≠ .suspect ∨ (s.engine i).probeRequest = false →
          t.engine i = e ∧ t.driveOut = s.driveOut ∧ t.sweep = s.sweep)) ∧
    (∀ (fp : Fingerprint) (cap : Lba), (s.bay i).awaits = .identity → cap ≠ 0 →
      (s.bay i).recorded = some fp → (s.engine i).probeRequest = false →
      s.Still i ∨ (∃ x, (s.slot i).phase = .handing ∧ (s.slot i).owner = some x ∧
        (s.engine i).outstanding x ≠ 0) →
      ∃ t, exec (.identifyAnswer i 0 fp cap) s = .next t ∧ (t.bay i).state = .ready ∧
        s.Serves i (s.engine i) [] t)

/-! ### Bays and drive links -/

/-- A presence input that changes starts the debounce of 2,000 ticks, or ends it where the level is back
at the debounced one. A debounce complete with a drive at an EMPTY bay starts its bring-up and tells both
nodes. Ready after training draws an untagged IDENTIFY; an answer that is not good is asked for again and
counted; a good answer that fits the recorded fingerprint ends bring-up with the bay READY at the
answer's capacity. -/
def Obligations.PresenceStartsBringUpAndIdentityEndsIt : Prop :=
  (∀ (s : State) (i : Slot),
      (∀ level, s.running = true → (s.bay i).input ≠ level →
        exec (.presenceChange i level) s = .next (s.setBay i { s.bay i with
          input := level, debounce := if level = (s.bay i).present then none else some (s.now + 2000) })) ∧
      (exec (.presenceChange i (s.bay i).input) s = .next s) ∧
      (s.running = true → (s.bay i).debounce = some s.now → (s.bay i).input = true →
        (s.bay i).state = .empty →
        exec (.insertion i) s = .next (((s.setBay i { s.bay i with
            state := .bringup, present := true, debounce := none, bringupDeadline := some (s.now + 100000)
            awaits := .readySignal, linkHeld := false }).raise .a (some i) .driveInserted).raise .b (some i)
          .driveInserted))) ∧
  (∀ (s : State) (i : Slot) (st : BitVec 16) (fp : Fingerprint) (cap : Lba), s.running = true →
      ((s.bay i).awaits = .readySignal →
        exec (.driveReady i) s = .next ((s.setBay i { s.bay i with awaits := .identity }).toDrive i
          [.identifyUntagged])) ∧
      ((s.bay i).awaits = .identity → st ≠ 0 ∨ cap = 0 →
        exec (.identifyAnswer i st fp cap) s = .next ((s.setBay i { s.bay i with
          identifyRetries := satInc (s.bay i).identifyRetries }).toDrive i [.identifyUntagged])) ∧
      ((s.bay i).awaits = .identity → st = 0 → cap ≠ 0 → (s.bay i).state = .bringup → s.Still i →
        s.Quiet i → (s.bay i).recorded = some fp →
        exec (.identifyAnswer i st fp cap) s = .next (s.setBay i { s.bay i with
          state := .ready, presented := none, capacity := some cap, bringupDeadline := none
          resetDeadline := none, resetCause := none, awaits := .nothing })))

/-- A removal empties the bay: the drive's ACTIVE commands and then the waiting ones end DRIVE_REMOVED to
their nodes, PENDING report entries become LOST_REMOVED, DRIVE_REMOVED with the bay state before goes to
both nodes, and the slot record, its windows and the other bays stand. The slot is neither HANDING nor
DRAINING and no probe is outstanding there. That the CPLs of the ACTIVE commands go out in dispatch order is
the model's choice (log 26). -/
def Obligations.RemovalEmptiesTheBay : Prop :=
  ∀ (s : State) (i : Slot), s.running = true → (s.bay i).debounce = some s.now →
    (s.bay i).input = false → (s.bay i).state ≠ .empty → s.Still i → s.probing i = false →
    ∃ t, exec (.removal i) s = .next t ∧
      t.bay i = { s.bay i with
        state := .empty, presented := none, capacity := none, present := false, debounce := none
        bringupDeadline := none, resetDeadline := none, resetCause := none, awaits := .nothing
        linkHeld := false } ∧
      t.engine i = { s.engine i with waiting := [], tags := [], probeRequest := false } ∧
      (∀ n, (s.port n).state = .up → (t.port n).unsent = (s.port n).unsent ++
        cplsFor n i .driveRemoved (s.slot i).generation
          (activeCommands (s.engine i).tags ++ (s.engine i).waiting)) ∧
      (∀ r, s.report i = some r → t.report i = some { r with entries := r.entries.map (fun e =>
        if e.fate = .pending then { e with fate := .lostRemoved } else e) }) ∧
      (∀ n, (s.notice n).on = true → (s.notice n).mask = 0 → (s.notice n).queue.length < 32 →
        (t.notice n).queue = (s.notice n).queue ++
          [{ slot := some i, tick := s.now, body := .driveRemoved (s.bay i).state }]) ∧
      t.slots = s.slots ∧ t.windows = s.windows ∧ t.store = s.store ∧ t.batches = s.batches ∧
      (∀ j, j ≠ i → t.bay j = s.bay j ∧ t.engine j = s.engine j ∧ t.report j = s.report j)

/-- A good answer in BRINGUP, or in RESETTING after a link reset, that differs from the recorded fingerprint
makes the bay of an owned slot SUSPECT: the waiting commands end CHECK_DRIVE, both nodes are told, and the
recorded fingerprint stands. Of a slot with no owner it is recorded and the bay is READY; so is the first one
of an owned slot, for which the store takes an update, or nothing is written while it is FAULTED. A READY bay
serves the commands that wait. -/
def Obligations.ForeignDriveIsSuspect : Prop :=
  ∀ (s : State) (i : Slot) (fp : Fingerprint) (cap : Lba), s.running = true →
    (s.bay i).awaits = .identity → cap ≠ 0 →
    (s.bay i).state = .bringup ∨ (s.bay i).state = .resetting → s.Still i →
    (s.engine i).probeRequest = false →
    ∀ b : Bay, b = { s.bay i with
      capacity := some cap, bringupDeadline := none, resetDeadline := none, resetCause := none
      awaits := .nothing } →
    ∀ ready : State → Prop, (∀ v, ready v ↔
      ∃ t, exec (.identifyAnswer i 0 fp cap) s = .next t ∧ v.Serves i (s.engine i) [] t ∧
        (∀ j, j ≠ i → t.engine j = s.engine j ∧ t.driveOut[j] = s.driveOut[j]) ∧
        { t with engines := s.engines, driveOut := s.driveOut } = v) →
    (∀ r, (s.bay i).recorded = some r → r ≠ fp → (s.slot i).owner.isSome →
      ∃ t, exec (.identifyAnswer i 0 fp cap) s = .next t ∧
        t.bay i = { b with state := .suspect, presented := some fp } ∧
        t.engine i = { s.engine i with waiting := [] } ∧
        (∀ n, (s.port n).state = .up → (t.port n).unsent = (s.port n).unsent ++
          cplsFor n i .checkDrive (s.slot i).generation (s.engine i).waiting) ∧
        (∀ n, (s.notice n).on = true → (s.notice n).mask = 0 → (s.notice n).queue.length < 32 →
          (t.notice n).queue = (s.notice n).queue ++
            [{ slot := some i, tick := s.now, body := .driveSuspect fp }]) ∧
        t.slots = s.slots ∧ t.store = s.store ∧ t.windows = s.windows) ∧
    ∀ v : State, v = s.setBay i { b with state := .ready, recorded := some fp, presented := none } →
      ((s.bay i).recorded ≠ some fp → (s.slot i).owner = none → ready v) ∧
      ((s.bay i).recorded = none → (s.slot i).owner.isSome →
        (s.store.mode = .faulted → ready v) ∧
        ∀ st, s.store.Accepts { slot := i, owner := (s.slot i).owner, generation := (s.slot i).generation
                                fingerprint := some fp, commitWaits := false } s.now st →
          ready (v.setStore st))

/-- A drive link that is lost in READY or SUSPECT, at a slot that is not HANDING, is reset: the bay is
RESETTING until now + L, every tag ends, ACTIVE commands ABORTED_RESET to their nodes, the waiting ones
stay, PENDING report entries become ABORTED_BY_RESET and mark the report. RESET_DRIVE from the owner of an
OWNED slot does the same under its own cause and is answered DONE with the deadline. No probe is outstanding
there. The dispatch order of the CPLs (log 26), their place before the RSP of RESET_DRIVE (log 12) and the
link reset sent as one frame (log 19) are the model's choices. -/
def Obligations.LinkResetEndsTheTags : Prop :=
  ∀ (s : State) (i : Slot), s.running = true → (s.bay i).state = .ready ∨ (s.bay i).state = .suspect →
    (s.slot i).phase ≠ .handing → s.probing i = false →
    ∀ after : ResetCause → List NodeFrame → Node → State → Prop,
    (∀ cause reply n t, after cause reply n t ↔
      (t.bay i).state = .resetting ∧ (t.bay i).resetCause = some cause ∧
      (t.bay i).resetDeadline = some (s.now + BitVec.ofNat 32 (s.timing.resetLimit * 10)) ∧
      (t.bay i).capacity = none ∧ (t.bay i).presented = none ∧ (t.bay i).recorded = (s.bay i).recorded ∧
      (t.bay i).resetsStarted = satInc (s.bay i).resetsStarted ∧ (t.bay i).awaits = .readySignal ∧
      t.engine i = { s.engine i with tags := [], probeRequest := false } ∧
      ((s.port n).state = .up → (t.port n).unsent = (s.port n).unsent ++
        cplsFor n i .abortedReset (s.slot i).generation (activeCommands (s.engine i).tags) ++ reply) ∧
      (∀ r, s.report i = some r → t.report i = some { r with
        entries := r.entries.map (fun e => if e.fate = .pending then { e with fate := .abortedByReset } else e)
        resetUsed := if r.pending = 0 then r.resetUsed else some (cause, s.now) }) ∧
      t.driveOut[i] = s.driveOut[i] ++ [.linkReset] ∧
      t.slots = s.slots ∧ t.windows = s.windows ∧ t.store = s.store ∧
      (∀ j, j ≠ i → t.bay j = s.bay j ∧ t.engine j = s.engine j)) →
    (∃ t, exec (.driveLinkLoss i) s = .next t ∧ (∀ n, after .linkLoss [] n t) ∧
      (t.bay i).linkLosses = satInc (s.bay i).linkLosses) ∧
    (∀ n id, s.Takes n → s.live n = true → (s.slot i).phase = .owned → (s.slot i).owner = some n →
      ∃ t, exec (.resetDrive n id i) s = .next t ∧
        after .resetDrive [.rsp id 0x29 .done
          (tickItem (s.now + BitVec.ofNat 32 (s.timing.resetLimit * 10)))] n t)

/-- A link loss in BRINGUP is counted and training starts again; in RESETTING training starts again; in HELD
and FAILED nothing happens. R123 says that a link loss in EMPTY cannot arise; that such a command changes
nothing is the model's choice (log 4). A RESET_DRIVE is refused in order: NO_LEASE; NOT_OWNER to a node that
is neither the owner nor the claimant of the DRAINING slot; WRONG_STATE to an owner whose slot is neither
OWNED nor HANDING, a fenced owner's DRAINING slot too; BUSY in RESETTING; WRONG_STATE by bay state. The
bring-up limit makes the bay FAILED with the link held in reset, counts it and tells both nodes; the
link-reset limit does too and ends the waiting commands SLOT_FAULTED. -/
def Obligations.LinkLossRefusalsAndLimits : Prop :=
  (∀ (s : State) (i : Slot), s.running = true →
      ((s.bay i).state = .bringup → exec (.driveLinkLoss i) s = .next (s.setBay i { s.bay i with
        linkLosses := satInc (s.bay i).linkLosses, awaits := .readySignal })) ∧
      ((s.bay i).state = .resetting → exec (.driveLinkLoss i) s = .next (s.setBay i { s.bay i with
        awaits := .readySignal })) ∧
      ((s.bay i).state = .held ∨ (s.bay i).state = .failed ∨ (s.bay i).state = .empty →
        exec (.driveLinkLoss i) s = .next s) ∧
      (∀ n id, s.Takes n → ∀ answer : Result → Prop, (∀ r, answer r ↔
          exec (.resetDrive n id i) s = .next (s.answered n id 0x29 r [])) →
        (s.live n = false → answer .noLease) ∧
        (s.live n = true →
          ((s.slot i).owner ≠ some n → (s.slot i).phase ≠ .draining ∨ (s.slot i).batch ≠ some n →
            answer .notOwner) ∧
          ((s.slot i).owner = some n → (s.slot i).phase ≠ .owned → (s.slot i).phase ≠ .handing →
            answer .wrongState) ∧
          ((s.slot i).owner = some n ∧ ((s.slot i).phase = .owned ∨ (s.slot i).phase = .handing) ∨
              (s.slot i).owner ≠ some n ∧ (s.slot i).phase = .draining ∧ (s.slot i).batch = some n →
            ((s.bay i).state = .resetting → answer .busy) ∧
            ((s.bay i).state = .empty ∨ (s.bay i).state = .bringup ∨ (s.bay i).state = .held ∨
              (s.bay i).state = .failed → answer .wrongState))))) ∧
  (∀ (s : State) (i : Slot), s.running = true →
      ∀ b : Bay, b = { s.bay i with
        state := .failed, bringupDeadline := none, resetDeadline := none, resetCause := none
        awaits := .nothing, linkHeld := true } →
      ((s.bay i).state = .bringup → (s.bay i).bringupDeadline = some s.now →
        exec (.bringupDeadline i) s = .next (((s.setBay i { b with
            bringupsFailed := satInc (s.bay i).bringupsFailed }).raise .a (some i)
          (.slotFaulted .bringupLimit)).raise .b (some i) (.slotFaulted .bringupLimit))) ∧
      ((s.bay i).state = .resetting → (s.bay i).resetDeadline = some s.now → s.Still i →
        ∃ t, exec (.resetDeadline i) s = .next t ∧
          t.bay i = { b with resetsFailed := satInc (s.bay i).resetsFailed } ∧
          t.engine i = { s.engine i with waiting := [] } ∧
          (∀ n, (s.port n).state = .up → (t.port n).unsent = (s.port n).unsent ++
            cplsFor n i .slotFaulted (s.slot i).generation (s.engine i).waiting) ∧
          (∀ n, (s.notice n).on = true → (s.notice n).mask = 0 → (s.notice n).queue.length < 32 →
            (t.notice n).queue = (s.notice n).queue ++
              [{ slot := some i, tick := s.now, body := .slotFaulted .resetLimit }]) ∧
          t.slots = s.slots ∧ (∀ j, j ≠ i → t.bay j = s.bay j)))

/-- The end of a drain or a handover by the bay. The removal of the drive at a DRAINING slot ends the
orphans LOST_REMOVED in the report, and the slot commits to the claimant on the EMPTY bay; at a HANDING
slot it commits to its target. A link reset that reaches its limit leaves the bay FAILED, and the DRAINING
or HANDING slot commits on it. A link loss at a HANDING slot with no command of its owner waiting resets the
link and commits the slot. The store is READY with nothing queued and no probe is outstanding there. The order
of the CPLs of ACTIVE commands is the model's choice (log 26). -/
def Obligations.RemovalAndFailureCommitTheSlot : Prop :=
  ∀ (s : State) (i : Slot) (o : Owner) (path : CommitPath), s.running = true → s.store.mode = .ready →
    s.store.queue = [] → s.probing i = false →
    (∃ n, (s.slot i).phase = .draining ∧ (s.slot i).batch = some n ∧ o = some n ∧ path = .takeover) ∨
      (∃ x, (s.slot i).phase = .handing ∧ (s.slot i).owner = some x ∧ (s.slot i).target = some o ∧
        path = if o.isSome then .handover else .release) →
    ∀ committed : State → Prop, (∀ t, committed t ↔
      t.slot i = { s.slot i with
        phase := .committing, owner := o, generation := succGen (s.slot i).generation
        target := some o, path := some path, batch := none, drainDeadline := none
        autoPending := none, storeLost := false, former := some (s.slot i).owner } ∧
      t.store.mode = .writing (s.commitUpdate i o) 1 s.now ∧
      (path = .takeover → ∀ n, o = some n → ∀ m ∈ (t.batch n).members, m.slot = i →
        m.status = .committing) ∧
      (∀ j, j ≠ i → t.slot j = s.slot j ∧ t.engine j = s.engine j ∧ t.bay j = s.bay j)) →
    ((s.bay i).debounce = some s.now → (s.bay i).input = false → (s.bay i).state ≠ .empty →
      ∃ t, exec (.removal i) s = .next t ∧ committed t ∧ (t.bay i).state = .empty ∧
        (t.engine i).tags = [] ∧ (t.engine i).waiting = [] ∧
        (∀ n, (s.port n).state = .up → (t.port n).unsent = (s.port n).unsent ++
          cplsFor n i .driveRemoved (s.slot i).generation
            (activeCommands (s.engine i).tags ++ (s.engine i).waiting)) ∧
        (∀ r, s.report i = some r → t.report i = some { r with entries := r.entries.map (fun e =>
          if e.fate = .pending then { e with fate := .lostRemoved } else e) })) ∧
    ((s.bay i).state = .resetting → (s.bay i).resetDeadline = some s.now → (s.engine i).tags = [] →
      ∃ t, exec (.resetDeadline i) s = .next t ∧ committed t ∧ (t.bay i).state = .failed ∧
        (t.bay i).linkHeld = true ∧ (t.engine i).waiting = [] ∧ t.reports = s.reports ∧
        (∀ n, (s.port n).state = .up → (t.port n).unsent = (s.port n).unsent ++
          cplsFor n i .slotFaulted (s.slot i).generation (s.engine i).waiting)) ∧
    (∀ x, (s.slot i).phase = .handing → (s.slot i).owner = some x →
      (s.bay i).state = .ready ∨ (s.bay i).state = .suspect →
      (s.engine i).waiting.filter (fun c => decide (c.node = x)) = [] →
      ∃ t, exec (.driveLinkLoss i) s = .next t ∧ committed t ∧ (t.bay i).state = .resetting ∧
        (t.bay i).resetCause = some .linkLoss ∧ (t.engine i).tags = [])

/-- HOLD of a quiet READY or SUSPECT bay by its owner, or of a bay whose slot is UNOWNED, makes it HELD,
and every other HOLD is refused in the order of R125. UNHOLD of a HELD bay and CLEAR_FAULT of a FAILED one
start its bring-up, for the owner, for any node at a slot with no owner, and for the partner of an
owner that is gone as R25 gives; every other is refused in the order of R126. That an owner which sent LEAVE
in EXPIRED is not gone here while the grace runs is the model's choice (log 33). -/
def Obligations.HoldUnholdAndClearFault : Prop :=
  ∀ (s : State) (n : Node) (id : BitVec 16) (i : Slot), s.Takes n →
    ∀ (may : Prop), (may ↔ (s.slot i).owner = none ∨ (s.slot i).owner = some n ∨
      (s.slot i).owner = some n.partner ∧ s.gone n.partner = true) →
    ∀ (hold unhold clear : Result → Prop),
    (∀ r, hold r ↔ exec (.hold n id i) s = .next (s.answered n id 0x24 r [])) →
    (∀ r, unhold r ↔ exec (.unhold n id i) s = .next (s.answered n id 0x25 r [])) →
    (∀ r, clear r ↔ exec (.clearFault n id i) s = .next (s.answered n id 0x27 r [])) →
    (s.live n = false → hold .noLease ∧ unhold .noLease ∧ clear .noLease) ∧
    (s.live n = true →
      ((s.slot i).phase ≠ .unowned → (s.slot i).phase ≠ .owned → hold .wrongState) ∧
      ((s.slot i).phase = .owned → (s.slot i).owner ≠ some n → hold .notOwner) ∧
      ((s.slot i).phase = .unowned ∨ (s.slot i).phase = .owned ∧ (s.slot i).owner = some n →
        ((s.bay i).state ≠ .ready → (s.bay i).state ≠ .suspect → hold .busy) ∧
        ((s.bay i).state = .ready ∨ (s.bay i).state = .suspect →
          ((s.engine i).busy = true → hold .busy) ∧
          ((s.engine i).busy = false → exec (.hold n id i) s = .next (((s.setEngine i { s.engine i with
              tags := (s.engine i).tags.filter (fun e => !e.isProbe) }).setBay i { s.bay i with
              state := .held, capacity := none, presented := none, linkHeld := true }).answered n id 0x24
            .done [])))) ∧
      (¬may → unhold .notOwner ∧ clear .notOwner) ∧
      (may →
        ((s.bay i).state ≠ .held → unhold .wrongState) ∧ ((s.bay i).state ≠ .failed → clear .wrongState) ∧
        ∀ b : Bay, b = { s.bay i with
          state := .bringup, bringupDeadline := some (s.now + 100000), awaits := .readySignal
          linkHeld := false } →
        ((s.bay i).state = .held →
          exec (.unhold n id i) s = .next ((s.setBay i b).answered n id 0x25 .done [])) ∧
        ((s.bay i).state = .failed →
          exec (.clearFault n id i) s = .next ((s.setBay i b).answered n id 0x27 .done []))))

/-- ADOPT by the owner of an OWNED or HANDING slot makes its SUSPECT bay READY with the presented
fingerprint as recorded one, and gives the store an update that no one waits for, unless the store is
FAULTED: its write starts in a READY store; in a WRITING one it is queued at the tail or takes over the
place and the waiting parties of a waiting update of its slot. Nothing waits at the bay. Every other ADOPT
is refused in the order of R127. -/
def Obligations.AdoptRecordsThePresentedDrive : Prop :=
  ∀ (s : State) (n : Node) (id : BitVec 16) (i : Slot), s.Takes n →
    ∀ answer : Result → Prop, (∀ r, answer r ↔
      exec (.adopt n id i) s = .next (s.answered n id 0x26 r [])) →
    (s.live n = false → answer .noLease) ∧
    (s.live n = true →
      ((s.slot i).owner ≠ some n → answer .notOwner) ∧
      ((s.slot i).owner = some n →
        ((s.slot i).phase ≠ .owned → (s.slot i).phase ≠ .handing → answer .wrongState) ∧
        ((s.slot i).phase = .owned ∨ (s.slot i).phase = .handing →
          ((s.bay i).state ≠ .suspect → answer .wrongState) ∧
          (∀ fp, (s.bay i).state = .suspect → (s.bay i).presented = some fp → s.Quiet i →
            ∀ t : State, t = s.setBay i { s.bay i with
              state := .ready, recorded := some fp, presented := none } →
            (s.store.mode = .faulted →
              exec (.adopt n id i) s = .next (t.answered n id 0x26 .done (u64 fp.toNat))) ∧
            (∀ st, s.store.Accepts { slot := i, owner := some n, generation := (s.slot i).generation
                                     fingerprint := some fp, commitWaits := false } s.now st →
              exec (.adopt n id i) s = .next ((t.setStore st).answered n id 0x26 .done
                (u64 fp.toNat)))))))

/-! ### Slot records -/

/-- SET_SLOT from a live node replaces policy and quotas, a quota above 32 taken as 32 with its flag, at
an UNOWNED slot or an OWNED or HANDING slot of the requester; every other is refused in the order of R6.
SET_TIMING from a live node replaces the five settings, each outside its range set to the nearer end with its
clamp flag; that each takes four bytes of the reply is the model's reading (log 9). -/
def Obligations.SetSlotAndSetTiming : Prop :=
  ∀ (s : State) (n : Node) (id : BitVec 16), s.Takes n →
    (∀ (i : Slot) (p qa qb : Byte),
      ∀ answer : Result → Prop, (∀ r, answer r ↔
        exec (.setSlot n id i p qa qb) s = .next (s.answered n id 0x28 r [])) →
      (1 < p.toNat → answer .badRequest) ∧
      (p.toNat ≤ 1 →
        (s.live n = false → answer .noLease) ∧
        (s.live n = true →
          ((s.slot i).phase = .claimed ∨ (s.slot i).phase = .draining ∨ (s.slot i).phase = .committing →
            answer .wrongState) ∧
          ((s.slot i).phase = .owned ∨ (s.slot i).phase = .handing → (s.slot i).owner ≠ some n →
            answer .notOwner) ∧
          ((s.slot i).phase = .unowned ∨
              ((s.slot i).phase = .owned ∨ (s.slot i).phase = .handing) ∧ (s.slot i).owner = some n →
            exec (.setSlot n id i p qa qb) s = .next ((s.setSlot i { s.slot i with
                policy := if p = 0 then .auto else .manual
                quota := ⟨min 32 qa.toNat, min 32 qb.toNat⟩ }).answered n id 0x28 .done
              (flag (decide (32 < qa.toNat)) ++ flag (decide (32 < qb.toNat)) ++ u8 p.toNat
                ++ u8 (min 32 qa.toNat) ++ u8 (min 32 qb.toNat))))))) ∧
    (∀ w b p c l : BitVec 32,
      (s.live n = false →
        exec (.setTiming n id w b p c l) s = .next (s.answered n id 0x33 .noLease [])) ∧
      (s.live n = true → ∀ t : Timing,
        t = { gatherWindow := min 1000 w.toNat, drainBase := min 60000 (max 100 b.toNat)
              drainPerCommand := min 1000 p.toNat, drainCap := min 120000 (max 1000 c.toNat)
              resetLimit := min 30000 (max 1000 l.toNat) } →
        exec (.setTiming n id w b p c l) s = .next (({ s with timing := t } : State).answered n id 0x33 .done
          (u32 t.gatherWindow ++ u32 t.drainBase ++ u32 t.drainPerCommand ++ u32 t.drainCap
            ++ u32 t.resetLimit ++ flag (decide (1000 < w.toNat))
            ++ flag (decide (b.toNat < 100 ∨ 60000 < b.toNat)) ++ flag (decide (1000 < p.toNat))
            ++ flag (decide (c.toNat < 1000 ∨ 120000 < c.toNat))
            ++ flag (decide (l.toNat < 1000 ∨ 30000 < l.toNat))))))

/-- CLAIM_FREE of an UNOWNED slot by a live node begins the commit at once: the owner is set, the
generation advances, the slot's windows are cleared and the request awaits its reply. The update's write starts
in a READY store; in a WRITING one it is queued at the tail or takes over the place of a waiting update of its
slot. While the store is FAULTED the commit ends at the same event: the slot is OWNED, the reply is DONE with
stored = 0 and SLOT_TAKEN says not stored. Every other CLAIM_FREE is refused in the order of R12 and R13. -/
def Obligations.ClaimFreeBeginsTheCommit : Prop :=
  ∀ (s : State) (n : Node) (id : BitVec 16) (i : Slot), s.Takes n →
    ∀ answer : Result → Prop, (∀ r, answer r ↔
      exec (.claimFree n id i) s = .next (s.answered n id 0x21 r [])) →
    (s.live n = false → answer .noLease) ∧
    (s.live n = true →
      ((s.slot i).phase = .claimed ∨ (s.slot i).phase = .draining →
        (s.slot i).batch = some n.partner → answer .contested) ∧
      ((s.slot i).phase = .claimed ∨ (s.slot i).phase = .draining →
        (s.slot i).batch ≠ some n.partner → answer .wrongState) ∧
      ((s.slot i).phase = .committing → (s.slot i).path = some .takeover →
        (s.slot i).target = some (some n.partner) → answer .contested) ∧
      ((s.slot i).phase = .owned ∨ (s.slot i).phase = .handing ∨
        ((s.slot i).phase = .committing ∧ ((s.slot i).path ≠ some .takeover ∨
          (s.slot i).target ≠ some (some n.partner))) → answer .wrongState) ∧
      ((s.slot i).phase = .unowned →
        ((s.bay i).state = .held → answer .wrongState) ∧
        ((s.bay i).state ≠ .held →
          ((s.slot i).storeLost = true → s.time.grace = true → answer .ownerGrace) ∧
          (∀ st, (s.slot i).storeLost = false ∨ s.time.grace = false →
            s.store.Accepts (s.commitUpdate i (some n)) s.now st →
            ∃ t, exec (.claimFree n id i) s = .next t ∧
              t.slot i = { s.slot i with
                phase := .committing, owner := some n, generation := succGen (s.slot i).generation
                target := some (some n), path := some .claim, batch := none, drainDeadline := none
                autoPending := none, storeLost := false, former := some (s.slot i).owner } ∧
              t.store = st ∧
              t.port n = { s.port n with awaiting := (s.port n).awaiting ++ [{ id := id, slot := i }] } ∧
              (∀ k, (s.window k).onSlot i = true → (t.window k).active = none) ∧
              (∀ k, (s.window k).onSlot i = false → t.window k = s.window k) ∧
              (∀ j, j ≠ i → t.slot j = s.slot j) ∧
              { t with slots := s.slots, store := s.store, ports := s.ports, windows := s.windows } = s) ∧
          ((s.slot i).storeLost = false ∨ s.time.grace = false → s.store.mode = .faulted →
            (∀ a ∈ (s.port n).awaiting, a.slot ≠ i) →
            ∃ t, exec (.claimFree n id i) s = .next t ∧
              t.slot i = { s.slot i with
                phase := .owned, owner := some n, generation := succGen (s.slot i).generation
                target := none, path := none, batch := none, drainDeadline := none
                autoPending := none, storeLost := false, former := none } ∧
              t.port n = { s.port n with unsent := (s.port n).unsent ++ [.rsp id 0x21 .done
                (genItem (succGen (s.slot i).generation) ++ u8 0)] } ∧
              t.notices = (s.raise n (some i)
                (.slotTaken (succGen (s.slot i).generation) false)).notices ∧
              (∀ k, (s.window k).onSlot i = true → (t.window k).active = none) ∧
              (∀ k, (s.window k).onSlot i = false → t.window k = s.window k) ∧
              (∀ j, j ≠ i → t.slot j = s.slot j) ∧ t.port n.partner = s.port n.partner ∧
              { t with
                slots := s.slots, ports := s.ports, windows := s.windows, notices := s.notices } = s))))

/-- RELEASE and HANDOVER judge each slot of the mask on its own: an OWNED slot of the requester whose bay
is not HELD commits at once with nothing outstanding, or else is HANDING until its drain deadline; every
other slot stands. The reply is the last frame produced and gives each slot of the mask its result: NOT_OWNER,
WRONG_STATE by phase or HELD bay, or DONE with the outstanding count and the drain deadline, "none" at count 0;
the items' widths are the model's reading (log 9). A mask of 0, a lease that is not live and, for
HANDOVER, a partner that is not live refuse the whole request. While the store is FAULTED a commit ends at the
event that begins it: the slot is UNOWNED or OWNED by the partner, nothing is written, and SLOT_RELEASED or
SLOT_HANDED goes to both nodes for each such slot in ascending order. -/
def Obligations.ReleaseAndHandoverGiveSlots : Prop :=
  ∀ (s : State) (n : Node) (id : BitVec 16) (mask : SlotMask) (hand : Bool), s.Takes n →
    ∀ (c : Instr) (code : Byte) (o : Owner) (path : CommitPath),
      c = (if hand then .handover n id mask else .release n id mask) →
      code = (if hand then 0x23 else 0x22) → o = (if hand then some n.partner else none) →
      path = (if hand then .handover else .release) →
    (mask = 0 → exec c s = .next (s.answered n id code .badRequest [])) ∧
    (mask ≠ 0 → s.live n = false → exec c s = .next (s.answered n id code .noLease [])) ∧
    (mask ≠ 0 → s.live n = true → hand = true → s.live n.partner = false →
      exec c s = .next (s.answered n id code .partnerNotLive [])) ∧
    (mask ≠ 0 → s.live n = true → hand = false ∨ s.live n.partner = true →
      ∀ result : Slot → Given, (∀ i, result i =
        if (s.slot i).owner ≠ some n then ⟨i, .notOwner, none, none⟩
        else if (s.slot i).phase ≠ .owned ∨ (s.bay i).state = .held then ⟨i, .wrongState, none, none⟩
        else ⟨i, .done, some ((s.engine i).outstanding n),
          if (s.engine i).outstanding n = 0 then none
          else some (s.now + BitVec.ofNat 32 (drainLimit s.timing ((s.engine i).outstanding n)))⟩) →
      ∃ t, exec c s = .next t ∧
        (∀ i, ∀ given : Prop, (given ↔ mask.getLsbD i.val = true ∧ (s.slot i).owner = some n ∧
            (s.slot i).phase = .owned ∧ (s.bay i).state ≠ .held) →
          (¬given → t.slot i = s.slot i) ∧
          (given → (s.engine i).outstanding n = 0 → s.store.mode = .faulted → t.slot i = { s.slot i with
            phase := if hand then .owned else .unowned, owner := o
            generation := succGen (s.slot i).generation, target := none, path := none, batch := none
            drainDeadline := none, autoPending := none, storeLost := false, former := none }) ∧
          (given → (s.engine i).outstanding n = 0 → s.store.mode ≠ .faulted → t.slot i = { s.slot i with
            phase := .committing, owner := o, generation := succGen (s.slot i).generation
            target := some o, path := some path, batch := none, drainDeadline := none
            autoPending := none, storeLost := false, former := some (some n) }) ∧
          (given → (s.engine i).outstanding n ≠ 0 → t.slot i = { s.slot i with
            phase := .handing, target := some o, path := none, batch := none
            drainDeadline := some (s.now + BitVec.ofNat 32
              (drainLimit s.timing ((s.engine i).outstanding n))) })) ∧
        ((t.port n).unsent = (s.port n).unsent ++ [.rsp id code
          (if ∃ i : Slot, mask.getLsbD i.val = true ∧ (s.slot i).owner = some n ∧
              (s.slot i).phase = .owned ∧ (s.bay i).state ≠ .held then .done else .refused)
          (listItem givenItem ((slotsIn mask).map result))]) ∧
        (s.store.mode = .faulted → t.store = s.store ∧
          ∀ told : List Notice, told = ((slotsIn mask).filter (fun i =>
              decide ((result i).count = some 0))).map (fun i =>
            { slot := some i, tick := s.now
              body := if hand then .slotHanded (some n.partner) (succGen (s.slot i).generation)
                else .slotReleased (some n) (succGen (s.slot i).generation) }) →
          ∀ m, (s.notice m).on = true → (s.notice m).mask = 0 →
            (s.notice m).queue.length + told.length ≤ 32 →
            (t.notice m).queue = (s.notice m).queue ++ told) ∧
        t.engines = s.engines ∧ t.bays = s.bays ∧ t.leases = s.leases)

/-- A written attempt puts the update into its record, and the store is READY or starts the next waiting
write. A fingerprint update ends there; a release commit leaves the slot UNOWNED and tells both nodes; a
claim commit leaves it OWNED, answers the awaiting request and tells the claimant, whose lease is live; a
handover commit leaves it OWNED and tells both nodes. Where the new owner of a handover is gone by then, the
policy AUTO and the partner live, the slot is claimed for the partner (R10); that a new owner which sent
LEAVE in EXPIRED is not gone here while the grace runs is the model's choice (log 33). -/
def Obligations.WrittenUpdateEndsTheCommit : Prop :=
  ∀ (s : State) (u : Update) (k : Nat) (d : Tick), s.running = true → s.store.mode = .writing u k d →
    20 ≤ (s.now - d).toNat → (s.now - d).toNat ≤ 80 →
    ∀ st : Store, st = { s.store with
      records := putAt s.store.records u.slot
        { owner := u.owner, generation := u.generation, fingerprint := u.fingerprint, intact := true }
      mode := match s.store.queue with
        | [] => .ready
        | v :: _ => .writing v 1 s.now
      queue := s.store.queue.tail } →
    (u.commitWaits = false → exec .storeWriteDone s = .next (s.setStore st)) ∧
    (u.commitWaits = true → (s.slot u.slot).phase = .committing →
      (∀ x, (s.slot u.slot).path = some .release → (s.slot u.slot).owner = none →
        (s.slot u.slot).former = some (some x) →
        exec .storeWriteDone s = .next ((((s.setStore st).setSlot u.slot { s.slot u.slot with
            phase := .unowned, target := none, path := none, batch := none, drainDeadline := none
            former := none }).raise .a (some u.slot)
              (.slotReleased (some x) (s.slot u.slot).generation)).raise .b (some u.slot)
          (.slotReleased (some x) (s.slot u.slot).generation))) ∧
      (∀ n id, (s.slot u.slot).path = some .claim → (s.slot u.slot).owner = some n →
        s.live n = true → (s.port n).state = .up → (s.port n).awaiting = [{ id := id, slot := u.slot }] →
        exec .storeWriteDone s = .next ((((s.setStore st).setSlot u.slot { s.slot u.slot with
            phase := .owned, target := none, path := none, batch := none, drainDeadline := none
            former := none }).setPort n { s.port n with
              awaiting := []
              unsent := (s.port n).unsent ++ [.rsp id 0x21 .done
                (genItem (s.slot u.slot).generation ++ u8 1)] }).raise n (some u.slot)
          (.slotTaken (s.slot u.slot).generation true))) ∧
      (∀ n, (s.slot u.slot).path = some .handover → (s.slot u.slot).owner = some n →
        ∀ rested : SlotRec, rested = { s.slot u.slot with
          phase := .owned, target := none, path := none, batch := none, drainDeadline := none
          former := none } →
        ∀ handed : State, handed = ((s.setStore st).setSlot u.slot rested).raiseBoth (some u.slot)
          (.slotHanded (some n) (s.slot u.slot).generation) →
        (s.gone n = false → exec .storeWriteDone s = .next handed) ∧
        (s.gone n = true → (s.slot u.slot).policy = .auto → s.live n.partner = true →
          s.timing.gatherWindow ≠ 0 →
          (s.batch n.partner).state = .noBatch ∨ (s.batch n.partner).state = .ended →
          exec .storeWriteDone s = .next ((handed.setSlot u.slot { rested with
              phase := .claimed, batch := some n.partner }).setBatch n.partner
            { state := .gathering, number := (s.batch n.partner).number + 1, origin := some .auto
              members := [{ slot := u.slot, prior := .owned, oldOwner := some n, status := .gathered
                            orphans := none, newGeneration := none, stored := none }]
              gatherDeadline := some (s.now + BitVec.ofNat 32 (s.timing.gatherWindow * 10))
              startTick := none, endTick := none, outcome := none }))))

/-- The written update of a takeover commit: the slot rests OWNED by the claimant, whose lease is not gone;
its member is TAKEN, or TAKEN_FAULTED at a FAILED bay, with the new generation; the report of a slot taken
from the partner becomes FINAL; SLOT_TAKEN goes to the claimant and SLOT_LOST to the partner. The batch ends
with its last member, BATCH_ENDED follows SLOT_TAKEN, and the slots marked auto-pending for the claimant are
examined: each loses its mark, and those that still qualify join one new AUTO batch. That the owner of a
marked slot which sent LEAVE in EXPIRED still counts as gone while the grace runs, and that R10 does not find
such a claimant gone, is the model's choice (log 33). -/
def Obligations.TakeoverCommitEndsMemberAndBatch : Prop :=
  ∀ (s : State) (u : Update) (k : Nat) (d : Tick) (n : Node) (m : Member), s.running = true →
    s.store.mode = .writing u k d → 20 ≤ (s.now - d).toNat → (s.now - d).toNat ≤ 80 →
    u.commitWaits = true → s.store.queue = [] → (s.slot u.slot).phase = .committing →
    (s.slot u.slot).path = some .takeover → (s.slot u.slot).owner = some n →
    (s.slot u.slot).autoPending = none → s.gone n = false → s.timing.gatherWindow ≠ 0 →
    m ∈ (s.batch n).members → m.slot = u.slot → ((s.batch n).members.map Member.slot).Nodup →
    (m.prior = .owned ∧ m.oldOwner = some n.partner ∨ m.prior = .unowned) →
    ∀ (g : Gen) (ms : List Member), g = (s.slot u.slot).generation →
    ms = (s.batch n).members.map (fun j => if j.slot = u.slot then { j with
        status := if (s.bay u.slot).state = .failed then .takenFaulted else .taken
        newGeneration := some g, stored := some true } else j) →
    ∀ last : Prop, (last ↔ (s.batch n).state = .running ∧ ∀ j ∈ ms, j.status.isFinal = true) →
    ∀ joins : Slot → Prop, (∀ i, joins i ↔ (s.slot i).autoPending = some n ∧ (s.slot i).phase = .owned ∧
      (s.slot i).owner = some n.partner ∧ s.staysGone n.partner = true ∧ (s.slot i).policy = .auto ∧
      s.live n = true) →
    ∀ told : List Notice → State → Prop,
    (∀ ns t, told ns t ↔ ((s.notice n).on = true → (s.notice n).mask = 0 →
      (s.notice n).queue.length + ns.length ≤ 32 → (t.notice n).queue = (s.notice n).queue ++ ns)) →
    ∀ taken : Notice, taken = { slot := some u.slot, tick := s.now, body := .slotTaken g true } →
    ∀ ended : Batch, ended = { s.batch n with
      state := .ended, members := ms, endTick := some s.now, gatherDeadline := none
      outcome := some (if ∀ j ∈ ms, j.status ≠ .skippedHeld then .allTaken else .partialTaken) } →
    ∃ t, exec .storeWriteDone s = .next t ∧
      t.slot u.slot = { s.slot u.slot with
        phase := .owned, target := none, path := none, batch := none, drainDeadline := none
        former := none } ∧
      t.report u.slot = (if m.prior = .owned then
          (s.report u.slot).map (fun r => { r with
            closing := some { generationAfter := g, stored := true, commitTick := s.now } })
        else s.report u.slot) ∧
      (m.prior = .owned → ∀ r, s.report u.slot = some r → (s.notice n.partner).on = true →
        (s.notice n.partner).mask = 0 → (s.notice n.partner).queue.length < 32 →
        (t.notice n.partner).queue = (s.notice n.partner).queue ++ [{ slot := some u.slot, tick := s.now
                                                                      body := .slotLost (some n) g r.entries.length }]) ∧
      t.batch n.partner = s.batch n.partner ∧ t.bays = s.bays ∧ t.engines = s.engines ∧
      t.leases = s.leases ∧
      (¬last → told [taken] t ∧ t.batch n = { s.batch n with members := ms } ∧
        ∀ i, i ≠ u.slot → t.slot i = s.slot i) ∧
      (last →
        told [taken, { slot := none, tick := s.now
                       body := .batchEnded (s.batch n).number (s.batch n).origin
                         (if ∀ j ∈ ms, j.status ≠ .skippedHeld then .allTaken else .partialTaken)
                         (countStatus .taken ms) (countStatus .takenFaulted ms)
                         (countStatus .skippedHeld ms) (countStatus .droppedOwnerReturned ms)
                         (countStatus .droppedCancelled ms) }] t ∧
        ((¬∃ i, joins i) → t.batch n = ended) ∧
        ((∃ i, joins i) → (t.batch n).state = .gathering ∧ (t.batch n).origin = some .auto ∧
          (t.batch n).number = (s.batch n).number + 1 ∧
          (t.batch n).gatherDeadline = some (s.now + BitVec.ofNat 32 (s.timing.gatherWindow * 10))) ∧
        (∀ i, i ≠ u.slot →
          (joins i → t.slot i = { s.slot i with
              phase := .claimed, batch := some n, target := none, path := none, drainDeadline := none
              autoPending := none } ∧
            ∃ j ∈ (t.batch n).members, j.slot = i ∧ j.status = .gathered ∧ j.oldOwner = some n.partner) ∧
          (¬joins i → (s.slot i).autoPending = some n →
            t.slot i = { s.slot i with autoPending := none }) ∧
          ((s.slot i).autoPending ≠ some n → t.slot i = s.slot i)))

/-- A failed attempt is retried at once with the same record. The third failure makes the store FAULTED with an
empty queue, tells both nodes with the number of waiting updates, and completes the failed update and then
each waiting update in queue order as not stored, no record written. A completed commit ends by its path: a
CLAIM_FREE is answered DONE with stored = 0 and SLOT_TAKEN says so, a release leaves its slot UNOWNED, a
handover leaves it OWNED by the new owner, and a takeover's member and report record that it is not stored
(`State.CommitEnds`, where the new owner is not gone). -/
def Obligations.FailedWriteIsRetriedThenFaults : Prop :=
  ∀ (s : State) (u : Update) (k : Nat) (d : Tick), s.running = true → s.store.mode = .writing u k d →
    20 ≤ (s.now - d).toNat → (s.now - d).toNat ≤ 80 →
    (k < 3 → exec .storeWriteFailed s = .next (s.setStore { s.store with
      mode := .writing u (k + 1) s.now })) ∧
    (k = 3 → ∀ v : State, v = ((s.setStore { s.store with mode := .faulted, queue := [] }).raise .a
        (some u.slot) (.storeFault s.store.queue.length)).raise .b (some u.slot)
        (.storeFault s.store.queue.length) →
      ∃ t, exec .storeWriteFailed s = .next t ∧ v.Complete false (u :: s.store.queue) t ∧ t.store = v.store)

/-! ### Takeover batches and reports -/

/-- TAKE by a live node whose batch does not run claims exactly the slots of the mask that are UNOWNED or
OWNED by a node that is gone, outside what the grace protects, and gathers until now + W. Its reply judges
every slot of the mask by R82 and shows the batch as it then stands; it is ACCEPTED when a slot joins or is
already a member of the gathering batch, else REFUSED with no batch changed. With W = 0 the run starts at
this event. A mask of 0, a lease that is not live and a running batch refuse it.
A slot of an ABSENT owner is OWNER_GRACE while the grace runs, in R82's words, also when the owner sent LEAVE
in EXPIRED: the model's choice against R36's "stays gone" (log 33). The layout of the reply is the model's
choice (log 9). -/
def Obligations.TakeClaimsTheFreeAndTheGone : Prop :=
  ∀ (s : State) (n : Node) (id : BitVec 16) (mask : SlotMask), s.Takes n →
    (mask = 0 → exec (.take n id mask) s = .next (s.answered n id 0x30 .badRequest [])) ∧
    (mask ≠ 0 → s.live n = false → exec (.take n id mask) s = .next (s.answered n id 0x30 .noLease [])) ∧
    (mask ≠ 0 → s.live n = true → (s.batch n).state = .running →
      exec (.take n id mask) s = .next (s.answered n id 0x30 .busy [])) ∧
    (mask ≠ 0 → s.live n = true → (s.batch n).state ≠ .running →
      ∀ joins already : Slot → Prop, (∀ i, joins i ↔ mask.getLsbD i.val = true ∧
        ((s.slot i).phase = .unowned ∧ ((s.slot i).storeLost = false ∨ s.time.grace = false) ∨
         (s.slot i).phase = .owned ∧ (s.slot i).owner = some n.partner ∧ s.gone n.partner = true)) →
      (∀ i, already i ↔ mask.getLsbD i.val = true ∧ (s.slot i).phase = .claimed ∧
        (s.slot i).batch = some n) →
      ∀ judged : Slot × Result → Prop, (∀ i r, judged (i, r) ↔
        (joins i ∨ already i → r = .joined) ∧
        ((s.slot i).phase = .claimed ∨ (s.slot i).phase = .draining →
          (s.slot i).batch = some n.partner → r = .contested) ∧
        ((s.slot i).phase = .handing ∨ (s.slot i).phase = .committing → r = .wrongState) ∧
        ((s.slot i).phase = .owned →
          ((s.slot i).owner = some n → r = .alreadyOwner) ∧
          ((s.slot i).owner = some n.partner → s.live n.partner = true → r = .ownerLive) ∧
          ((s.slot i).owner = some n.partner → (s.lease n.partner).state = .absent →
            s.time.grace = true → r = .ownerGrace)) ∧
        ((s.slot i).phase = .unowned → (s.slot i).storeLost = true → s.time.grace = true →
          r = .ownerGrace)) →
      ∀ replied : Result → State → Prop, (∀ r t, replied r t ↔ ∃ rs : List (Slot × Result),
        rs.map Prod.fst = slotsIn mask ∧ (∀ x ∈ rs, judged x) ∧
        (t.port n).unsent = (s.port n).unsent ++ [.rsp id 0x30 r
          (u8 (t.batch n).number.toNat ++ u8 (batchStateCode (t.batch n).state)
            ++ optItem 4 tickItem (t.batch n).gatherDeadline
            ++ listItem (fun x => slotItem x.1 ++ u8 (resultCode x.2)) rs)]) →
      (s.timing.gatherWindow ≠ 0 →
        ∃ t, exec (.take n id mask) s = .next t ∧
          (∀ i, joins i → t.slot i = { s.slot i with
            phase := .claimed, batch := some n, target := none, path := none, drainDeadline := none }) ∧
          (∀ i, ¬joins i → t.slot i = s.slot i) ∧
          ((∃ i, joins i) → (t.batch n).state = .gathering ∧
            (t.batch n).gatherDeadline = some (s.now + BitVec.ofNat 32 (s.timing.gatherWindow * 10)) ∧
            (∀ i, joins i → ∃ m ∈ (t.batch n).members, m.slot = i ∧ m.status = .gathered ∧
              m.oldOwner = (s.slot i).owner)) ∧
          ((¬∃ i, joins i) → t.batches = s.batches) ∧
          ((∃ i, joins i ∨ already i) → replied .accepted t) ∧
          ((¬∃ i, joins i ∨ already i) → replied .refused t) ∧
          t.engines = s.engines ∧ t.bays = s.bays ∧ t.store = s.store ∧ t.leases = s.leases) ∧
      (s.timing.gatherWindow = 0 → s.store.mode ≠ .faulted →
        (∃ i, joins i ∧ (s.bay i).state ≠ .held) →
        ∃ t, exec (.take n id mask) s = .next t ∧ (t.batch n).state = .running ∧
          (t.batch n).startTick = some s.now ∧ (t.batch n).gatherDeadline = none ∧
          (∀ i, joins i → (s.bay i).state ≠ .held →
            (t.slot i).phase = .draining ∨ (t.slot i).phase = .committing) ∧
          replied .accepted t))

/-- CANCEL_TAKE of a gathering batch ends it CANCELLED, and the loss of the claimant's lease, by expiry or by
LEAVE, ends it CLAIMANT_LOST: each GATHERED member becomes DROPPED_CANCELLED, its CLAIMED slot returns to the
prior phase, and BATCH_ENDED goes to the claimant. A running batch answers CANCEL_TAKE with IGNORED_RUNNING
and is not touched by the loss of the lease; none or an ended one answers WRONG_STATE. No slot carries an
auto-pending mark, and where the lease is lost the node runs no sweep and its partner's lease is not live.
The layout of the reply is the model's choice (log 9). -/
def Obligations.CancelAndClaimantLossReturnTheSlots : Prop :=
  ∀ (s : State) (n : Node) (id : BitVec 16), s.Takes n →
    ∀ gone : Instr → Prop, (∀ c, gone c ↔ s.live n = true ∧ s.sweep.runsFor n = false ∧
      s.live n.partner = false ∧
      (c = .leave n id ∨ c = .expiryDeadline n ∧ (s.lease n).expiry = some s.now)) →
    ((s.batch n).state = .running →
      exec (.cancelTake n id) s = .next (s.answered n id 0x31 .ignoredRunning [])) ∧
    ((s.batch n).state = .running → ∀ c, gone c → ∃ t, exec c s = .next t ∧ t.live n = false ∧
      t.batches = s.batches ∧ t.slots = s.slots) ∧
    ((s.batch n).state = .noBatch ∨ (s.batch n).state = .ended →
      exec (.cancelTake n id) s = .next (s.answered n id 0x31 .wrongState [])) ∧
    ((s.batch n).state = .gathering → ((s.batch n).members.map Member.slot).Nodup →
      (∀ i, (s.slot i).autoPending = none) →
      ∀ cancelled : BatchOutcome → State → Prop,
      (∀ o t, cancelled o t ↔
        (t.batch n).state = .ended ∧ (t.batch n).outcome = some o ∧
        (t.batch n).endTick = some s.now ∧ (t.batch n).gatherDeadline = none ∧
        (t.batch n).members = (s.batch n).members.map (fun m =>
          if m.status = .gathered then { m with status := .droppedCancelled } else m) ∧
        (∀ m ∈ (s.batch n).members, m.status = .gathered → (s.slot m.slot).phase = .claimed →
          (s.slot m.slot).batch = some n → t.slot m.slot = { s.slot m.slot with
            phase := m.prior.phase, target := none, path := none, batch := none
            drainDeadline := none }) ∧
        (∀ i, (∀ m ∈ (s.batch n).members, m.slot = i → m.status ≠ .gathered) →
          t.slot i = s.slot i) ∧
        ((s.notice n).on = true → (s.notice n).mask = 0 → (s.notice n).queue.length < 32 →
          (t.notice n).queue = (s.notice n).queue ++ [{ slot := none, tick := s.now
                                                        body := .batchEnded (s.batch n).number (s.batch n).origin o
                                                          (countStatus .taken (s.batch n).members)
                                                          (countStatus .takenFaulted (s.batch n).members)
                                                          (countStatus .skippedHeld (s.batch n).members)
                                                          (countStatus .droppedOwnerReturned (s.batch n).members)
                                                          (countStatus .droppedCancelled (s.batch n).members
                                                            + countStatus .gathered (s.batch n).members) }]) ∧
        t.engines = s.engines ∧ t.bays = s.bays ∧ t.store = s.store) →
      (∃ t, exec (.cancelTake n id) s = .next t ∧ cancelled .cancelled t ∧ t.leases = s.leases ∧
        (t.port n).unsent = (s.port n).unsent ++ [.rsp id 0x31 .done (u8 (s.batch n).number.toNat
          ++ u8 (countStatus .gathered (s.batch n).members))]) ∧
      (∀ c, gone c → ∃ t, exec c s = .next t ∧ cancelled .claimantLost t ∧ t.live n = false))

/-- The gather deadline runs the batch. A member that was UNOWNED commits; one that was OWNED is fenced, its
report opened and its slot put into the old owner's lost set, and it commits when no orphan is left, else
drains until now + D; a member whose bay is HELD is skipped and returned. Where some member's bay is not HELD,
and the store is not FAULTED, the batch does not end at once. Where the bay of every GATHERED member is HELD,
each is SKIPPED_HELD and returned, and the batch ends at this event with NONE_TAKEN, its BATCH_ENDED raised to
the claimant; no slot is marked auto-pending for it. A member's orphan count is recorded from 1 up (log 28,
the model's reading). -/
def Obligations.GatherDeadlineRunsTheBatch : Prop :=
  ∀ (s : State) (n : Node), s.running = true → (s.batch n).state = .gathering →
    (s.batch n).gatherDeadline = some s.now →
    ((s.batch n).members.map Member.slot).Nodup →
    (s.store.mode ≠ .faulted →
      (∃ m ∈ (s.batch n).members, m.status = .gathered ∧ (s.bay m.slot).state ≠ .held) →
      ∃ t, exec (.gatherDeadline n) s = .next t ∧ (t.batch n).state = .running ∧
        (t.batch n).startTick = some s.now ∧ (t.batch n).gatherDeadline = none ∧ t.bays = s.bays ∧
        ∀ m ∈ (s.batch n).members, m.status = .gathered →
          ∀ committing : SlotRec, committing = { s.slot m.slot with
            phase := .committing, owner := some n, generation := succGen (s.slot m.slot).generation
            target := some (some n), path := some .takeover, batch := none, drainDeadline := none
            autoPending := none, storeLost := false, former := some (s.slot m.slot).owner } →
          ((s.bay m.slot).state = .held →
            t.engine m.slot = s.engine m.slot ∧ t.report m.slot = s.report m.slot ∧
            { m with status := .skippedHeld } ∈ (t.batch n).members ∧
            ((s.slot m.slot).phase = .claimed → (s.slot m.slot).batch = some n →
              t.slot m.slot = { s.slot m.slot with
                phase := m.prior.phase, target := none, path := none, batch := none
                drainDeadline := none })) ∧
          ((s.bay m.slot).state ≠ .held → m.prior = .unowned →
            t.slot m.slot = committing ∧ t.engine m.slot = s.engine m.slot ∧
            t.report m.slot = s.report m.slot ∧ { m with status := .committing } ∈ (t.batch n).members) ∧
          (∀ x, (s.bay m.slot).state ≠ .held → m.prior = .owned → m.oldOwner = some x →
            t.engine m.slot = (s.engine m.slot).fence x ∧
            t.report m.slot = some
              { oldOwner := x, newOwner := n, generationBefore := (s.slot m.slot).generation
                fenceTick := s.now, closing := none, resetUsed := none
                replacedUnread := match s.report m.slot with
                  | some r => !r.readToEnd
                  | none => false
                readToEnd := false, entries := (s.engine m.slot).fenceEntries x } ∧
            (t.lease x).lost.getLsbD m.slot.val = true ∧
            ∀ k, k = ((s.engine m.slot).fence x).orphans →
              (k = 0 → t.slot m.slot = committing ∧
                { m with status := .committing } ∈ (t.batch n).members) ∧
              (k ≠ 0 → t.slot m.slot = { s.slot m.slot with
                  phase := .draining, batch := some n, target := none, path := none
                  drainDeadline := some (s.now + BitVec.ofNat 32 (drainLimit s.timing k)) } ∧
                { m with status := .draining, orphans := some k } ∈ (t.batch n).members))) ∧
    ((∀ m ∈ (s.batch n).members, m.status = .gathered ∧ (s.bay m.slot).state = .held ∨
        m.status = .droppedOwnerReturned ∨ m.status = .droppedCancelled) →
      (∀ j, (s.slot j).autoPending ≠ some n) →
      ∀ ms : List Member, ms = (s.batch n).members.map (fun m =>
        if m.status = .gathered then { m with status := .skippedHeld } else m) →
      ∃ t, exec (.gatherDeadline n) s = .next t ∧
        t.batch n = { s.batch n with
          state := .ended, members := ms, gatherDeadline := none, startTick := some s.now
          endTick := some s.now, outcome := some .noneTaken } ∧
        (∀ m ∈ (s.batch n).members, m.status = .gathered → (s.slot m.slot).phase = .claimed →
          (s.slot m.slot).batch = some n → t.slot m.slot = { s.slot m.slot with
            phase := m.prior.phase, target := none, path := none, batch := none, drainDeadline := none }) ∧
        (∀ i, (∀ m ∈ (s.batch n).members, m.status = .gathered → m.slot ≠ i) → t.slot i = s.slot i) ∧
        t.notices = (s.raise n none (.batchEnded (s.batch n).number (s.batch n).origin .noneTaken 0 0
          (countStatus .skippedHeld ms) (countStatus .droppedOwnerReturned ms)
          (countStatus .droppedCancelled ms))).notices ∧
        t.batch n.partner = s.batch n.partner ∧
        { t with slots := s.slots, batches := s.batches, notices := s.notices } = s)

/-- The drain deadline of a HANDING slot is removed when it is reached; in a bay neither READY nor SUSPECT
nothing else happens, else, with the store not FAULTED, the link reset starts, and a slot with no command of
its owner waiting commits. The drain deadline of a DRAINING slot resets the link of a READY or SUSPECT bay,
so that its orphans end ABORTED_BY_RESET in the report, and raises DRAIN_RESET to the claimant; in any other
bay state it does nothing. The claimant's RESET_DRIVE resets the link too. The slot commits when the reset
is over and the drive's identity is read. A HANDING slot whose deadline is gone and whose owner has commands
left gets a new drain deadline when a link reset ends in READY. No probe is outstanding there. That the
reached deadline stays in a DRAINING slot's record is the model's reading (log 32). -/
def Obligations.DrainDeadlinesResetTheLink : Prop :=
  (∀ (s : State) (i : Slot) (x : Node) (o : Owner), s.running = true → (s.slot i).phase = .handing →
      (s.slot i).owner = some x → (s.slot i).target = some o → (s.slot i).drainDeadline = some s.now →
      s.probing i = false →
      ((s.bay i).state ≠ .ready → (s.bay i).state ≠ .suspect →
        exec (.handingDrainDeadline i) s = .next (s.setSlot i { s.slot i with drainDeadline := none })) ∧
      ((s.bay i).state = .ready ∨ (s.bay i).state = .suspect → s.store.mode ≠ .faulted →
        ∃ t, exec (.handingDrainDeadline i) s = .next t ∧ (t.bay i).state = .resetting ∧
          (t.bay i).resetCause = some .drainLimit ∧ (t.engine i).tags = [] ∧
          (t.engine i).waiting = (s.engine i).waiting ∧
          ((s.engine i).waiting.filter (fun c => decide (c.node = x)) ≠ [] →
            t.slot i = { s.slot i with drainDeadline := none }) ∧
          ((s.engine i).waiting.filter (fun c => decide (c.node = x)) = [] → s.store.mode = .ready →
            s.store.queue = [] →
            (t.slot i).phase = .committing ∧ (t.slot i).owner = o ∧
            (t.slot i).generation = succGen (s.slot i).generation ∧
            t.store.mode = .writing (s.commitUpdate i o) 1 s.now))) ∧
  (∀ (s : State) (i : Slot) (n : Node) (d : Tick), s.running = true → (s.slot i).phase = .draining →
      (s.slot i).batch = some n → (s.slot i).drainDeadline = some d → s.probing i = false →
      (d = s.now →
        ((s.bay i).state ≠ .ready → (s.bay i).state ≠ .suspect → exec (.drainDeadline i) s = .next s) ∧
        ((s.bay i).state = .ready ∨ (s.bay i).state = .suspect →
          ∃ t, exec (.drainDeadline i) s = .next t ∧ (t.bay i).state = .resetting ∧
            (t.bay i).resetCause = some .drainLimit ∧ (t.engine i).tags = [] ∧ t.slots = s.slots ∧
            (∀ r, s.report i = some r → t.report i = some { r with
              entries := r.entries.map (fun e =>
                if e.fate = .pending then { e with fate := .abortedByReset } else e)
              resetUsed := if r.pending = 0 then r.resetUsed else some (.drainLimit, s.now) }) ∧
            ((s.notice n).on = true → (s.notice n).mask = 0 → (s.notice n).queue.length < 32 →
              (t.notice n).queue = (s.notice n).queue ++
                [{ slot := some i, tick := s.now, body := .drainReset (s.engine i).orphans d }]))) ∧
      (∀ id, s.Takes n → s.live n = true → (s.slot i).owner = some n.partner →
        (s.bay i).state = .ready ∨ (s.bay i).state = .suspect →
        ∃ t, exec (.resetDrive n id i) s = .next t ∧ (t.bay i).state = .resetting ∧
          (t.bay i).resetCause = some .resetDrive ∧ (t.engine i).tags = [] ∧ t.slots = s.slots) ∧
      (∀ fp cap, (s.bay i).state = .resetting → (s.bay i).awaits = .identity → cap ≠ 0 →
        (s.bay i).recorded = some fp → (s.engine i).tags = [] → s.Quiet i → s.store.mode = .ready →
        s.store.queue = [] →
        ∃ t, exec (.identifyAnswer i 0 fp cap) s = .next t ∧ (t.bay i).state = .ready ∧
          (t.bay i).capacity = some cap ∧ (t.slot i).phase = .committing ∧ (t.slot i).owner = some n ∧
          (t.slot i).generation = succGen (s.slot i).generation ∧
          t.store.mode = .writing (s.commitUpdate i (some n)) 1 s.now)) ∧
  (∀ (s : State) (i : Slot) (x : Node) (fp : Fingerprint) (cap : Lba) (k : Nat), s.running = true →
      (s.slot i).phase = .handing → (s.slot i).owner = some x → (s.slot i).drainDeadline = none →
      (s.bay i).state = .resetting → (s.bay i).awaits = .identity → cap ≠ 0 →
      (s.bay i).recorded = some fp → k = (s.engine i).outstanding x → k ≠ 0 →
      ∃ t, exec (.identifyAnswer i 0 fp cap) s = .next t ∧ (t.bay i).state = .ready ∧
        t.slot i = { s.slot i with
          drainDeadline := some (s.now + BitVec.ofNat 32 (drainLimit s.timing k)) } ∧
        (∀ j, j ≠ i → t.slot j = s.slot j) ∧ t.store = s.store ∧ (t.engine i).outstanding x = k)

/-- READ_REPORT answers either node with the header and up to 8 entries from the first index, and marks
the report read to end when its new owner has a FINAL report's last entry. DISCARD_REPORT removes a FINAL
report for its live new owner, and is refused in the order of R110 otherwise. The header shows "read to end" as
this reading leaves it, and the reply's widths are the model's reading (logs 9 and 10). -/
def Obligations.ReportsAreReadAndDiscarded : Prop :=
  ∀ (s : State) (n : Node) (id : BitVec 16) (i : Slot), s.Takes n →
    (∀ first : Byte,
      (47 < first.toNat → exec (.readReport n id i first) s = .next (s.answered n id 0x34 .badRequest [])) ∧
      (first.toNat ≤ 47 → s.report i = none →
        exec (.readReport n id i first) s = .next (s.answered n id 0x34 .noReport [])) ∧
      (∀ r u, first.toNat ≤ 47 → s.report i = some r →
        u = { r with readToEnd := r.readToEnd || (decide (r.newOwner = n) && r.closing.isSome &&
          decide (first.toNat + ((r.entries.drop first.toNat).take 8).length = r.entries.length)) } →
        exec (.readReport n id i first) s = .next ((s.setReport i (some u)).answered n id 0x34 .done
          (reportHeader u ++ u8 first.toNat
            ++ listItem reportEntryRecord ((r.entries.drop first.toNat).take 8)
            ++ u8 (r.entries.length - (first.toNat + ((r.entries.drop first.toNat).take 8).length)))))) ∧
    (∀ answer : Result → Prop, (∀ r, answer r ↔
        exec (.discardReport n id i) s = .next (s.answered n id 0x35 r [])) →
      (s.report i = none → answer .noReport) ∧
      (∀ r, s.report i = some r →
        (s.live n = false → answer .noLease) ∧
        (s.live n = true → r.newOwner ≠ n → answer .notOwner) ∧
        (s.live n = true → r.newOwner = n → r.closing = none → answer .wrongState) ∧
        (s.live n = true → r.newOwner = n → r.closing.isSome →
          exec (.discardReport n id i) s = .next ((s.setReport i none).answered n id 0x35 .done []))))

/-! ### Windows -/

/-- SET_WINDOW by the live owner of an OWNED slot makes the entry ACTIVE with hit count 0 and no last
clear, from UNUSED or in place of an entry on a slot of the same owner that is not being taken.
CLEAR_WINDOW by that owner leaves it UNUSED with its last clear; an UNUSED entry is answered DONE. Index,
kind or range out of order is BAD_REQUEST, and the other refusals follow the order of R69 and R71. The
layout of the two replies is the model's reading (log 9). -/
def Obligations.WindowsAreSetAndCleared : Prop :=
  ∀ (s : State) (n : Node) (id : BitVec 16) (k : Fin 4), s.Takes n →
    (∀ (i : Slot) (first last : Lba) (kind : WindowKind), first.toNat ≤ last.toNat →
      ∀ answer : Result → Prop, (∀ r, answer r ↔
        exec (.setWindow n id (BitVec.ofNat 8 k.val) i first last (BitVec.ofNat 8 (windowKindCode kind))) s =
          .next (s.answered n id 0x40 r [])) →
      (s.live n = false → answer .noLease) ∧
      (s.live n = true →
        ((s.slot i).phase ≠ .owned → (s.slot i).phase ≠ .unowned → answer .wrongState) ∧
        ((s.slot i).phase = .unowned → answer .notOwner) ∧
        ((s.slot i).phase = .owned → (s.slot i).owner ≠ some n → answer .notOwner) ∧
        ((s.slot i).phase = .owned → (s.slot i).owner = some n →
          (∀ a, (s.window k).active = some a → (s.slot a.slot).owner ≠ some n → answer .notOwner) ∧
          (∀ a, (s.window k).active = some a → (s.slot a.slot).owner = some n →
            (s.slot a.slot).phase = .claimed ∨ (s.slot a.slot).phase = .draining → answer .wrongState) ∧
          ((∀ a, (s.window k).active = some a → (s.slot a.slot).owner = some n ∧
              (s.slot a.slot).phase ≠ .claimed ∧ (s.slot a.slot).phase ≠ .draining) →
            ∀ w : Window, w = { active := some { slot := i, first := first, last := last, kind := kind
                                                 setBy := n, setTick := s.now }
                                hits := 0, lastClear := none } →
            exec (.setWindow n id (BitVec.ofNat 8 k.val) i first last
                (BitVec.ofNat 8 (windowKindCode kind))) s =
              .next ((s.setWindow k w).answered n id 0x40 .done
                (windowItem w ++ previousItem (s.window k))))))) ∧
    (∀ (index : Byte) (i : Slot) (first last : Lba) (kind : Byte),
      3 < index.toNat ∨ kind = 0 ∨ 3 < kind.toNat ∨ last.toNat < first.toNat →
      exec (.setWindow n id index i first last kind) s = .next (s.answered n id 0x40 .badRequest [])) ∧
    (∀ index : Byte, 3 < index.toNat →
      exec (.clearWindow n id index) s = .next (s.answered n id 0x41 .badRequest [])) ∧
    (s.live n = false →
      exec (.clearWindow n id (BitVec.ofNat 8 k.val)) s = .next (s.answered n id 0x41 .noLease [])) ∧
    (s.live n = true →
      ((s.window k).active = none → exec (.clearWindow n id (BitVec.ofNat 8 k.val)) s =
        .next (s.answered n id 0x41 .done (u8 1 ++ optItem 17 lastClearItem (s.window k).lastClear))) ∧
      (∀ a, (s.window k).active = some a →
        ((s.slot a.slot).owner ≠ some n → exec (.clearWindow n id (BitVec.ofNat 8 k.val)) s =
          .next (s.answered n id 0x41 .notOwner [])) ∧
        ((s.slot a.slot).owner = some n → (s.slot a.slot).phase = .claimed ∨
            (s.slot a.slot).phase = .draining → exec (.clearWindow n id (BitVec.ofNat 8 k.val)) s =
          .next (s.answered n id 0x41 .wrongState [])) ∧
        ((s.slot a.slot).owner = some n → (s.slot a.slot).phase ≠ .claimed →
          (s.slot a.slot).phase ≠ .draining →
          ∀ c : LastClear, c = { cause := .request, slot := a.slot, kind := a.kind, first := a.first
                                 last := a.last, hits := (s.window k).hits } →
          exec (.clearWindow n id (BitVec.ofNat 8 k.val)) s =
            .next ((s.setWindow k { active := none, hits := 0, lastClear := some c }).answered n id 0x41
              .done (u8 0 ++ optItem 17 lastClearItem (some c))))))

/-! ### The ownership audit -/

/-- START_AUDIT by a live node with notices on, while no sweep runs, dispatches a probe at once to a READY or
SUSPECT bay where nothing waits and a tag is FREE, and its slot is neither DRAINING, HANDING nor COMMITTING.
STEP_AUDIT of the requester's PAUSED_STEP sweep does the same at the current slot. Both leave the probe
deadline at now + 10,000. Where no tag is FREE, whatever waits, both leave the probe REQUESTED: its request
waits at the bay, ahead of every command, and nothing is sent to the drive. -/
def Obligations.AuditProbesTheSlot : Prop :=
  ∀ (s : State) (n : Node) (id : BitVec 16) (i : Slot), s.Takes n →
    (s.bay i).state = .ready ∨ (s.bay i).state = .suspect →
    (s.slot i).phase = .unowned ∨ (s.slot i).phase = .owned ∨ (s.slot i).phase = .claimed →
    ∀ asked : State → Probe → Prop, (∀ v p, asked v p ↔
      (∀ (last : Slot) (mode : AuditMode) (budget : Byte), s.live n = true → (s.notice n).on = true →
        s.sweep.state = .idle →
        exec (.startAudit n id i last (BitVec.ofNat 8 (auditModeCode mode)) budget) s =
          .next ((v.setSweep { s.sweep with
              state := .probing, holder := none, ended := none, current := some i, probe := some p
              run := some { requester := n, first := i, last := last, mode := mode, budget := budget
                            issued := 0, pass := 0, startTick := s.now } }).answered n id 0x50 .done
            (u8 ((last - i).val + 1) ++ u16 0))) ∧
      (s.sweep.state = .pausedStep → s.sweep.runsFor n = true → s.sweep.current = some i →
        exec (.stepAudit n id) s = .next ((v.setSweep { s.sweep with
            state := .probing, probe := some p }).answered n id 0x51 .done (u8 i.val)))) →
    (∀ k, (s.engine i).waiting = [] → lowestFree (s.engine i).tags = some k →
      asked ((s.setEngine i { s.engine i with
          probeRequest := false, tags := (s.engine i).tags ++ [⟨k, .probe true⟩] }).toDrive i
        [.identifyTagged k]) (.dispatched k (s.now + 10000))) ∧
    (lowestFree (s.engine i).tags = none →
      asked (s.setEngine i { s.engine i with probeRequest := true }) .requested)

/-- A slot whose bay is EMPTY is ABSENT, and one in a bay that is BRINGUP, RESETTING, HELD or FAILED, or
DRAINING, HANDING or COMMITTING in a READY or SUSPECT bay, is NOT_PROBED: its result is produced at once.
STEP_AUDIT at such a slot places it in the requester's queue; then the sweep ends BUDGET where its budget is
reached, else DONE at the last slot, else pauses at the next slot. With 32 notices queued the result stays in
the holder, PAUSED_FULL, and nothing is dropped. START_AUDIT of a sweep that is not STEPPED goes on to the
next slot at the same event, here one that is probed. That the current slot leaves the record of a sweep that
ends is the model's choice (log 35). -/
def Obligations.SweepSettlesSlotsWithoutProbe : Prop :=
  ∀ (s : State) (n : Node) (id : BitVec 16) (i : Slot) (o : AuditOutcome), s.Takes n →
    (s.notice n).on = true → (s.notice n).mask = 0 →
    ((s.bay i).state = .empty ∧ o = .absent) ∨
      (((s.bay i).state = .bringup ∨ (s.bay i).state = .resetting ∨ (s.bay i).state = .held ∨
        (s.bay i).state = .failed ∨ ((s.bay i).state = .ready ∨ (s.bay i).state = .suspect) ∧
          ((s.slot i).phase = .draining ∨ (s.slot i).phase = .handing ∨
            (s.slot i).phase = .committing)) ∧ o = .notProbed) →
    ∀ (r : AuditResult) (placed : Notice), r = { slot := i, outcome := o, owner := (s.slot i).owner
                                                 generation := (s.slot i).generation
                                                 phase := (s.slot i).phase, bayState := (s.bay i).state
                                                 fingerprint := none, driveStatus := none
                                                 tick := s.now } →
    placed = { slot := some i, tick := s.now
               body := .auditResult o r.owner r.generation r.phase r.bayState } →
    ∀ ends : Count16 → Count16 → EndReason → Notice,
    (∀ issued pass reason, ends issued pass reason = { slot := none, tick := s.now
                                                       body := .auditEnded reason issued pass }) →
    (∀ w : SweepRun, s.sweep.state = .pausedStep → s.sweep.run = some w → w.requester = n →
      s.sweep.current = some i → w.mode = .stepped → s.sweep.probe = none →
      ∀ (w' : SweepRun) (stopped : EndReason → Sweep), w' = { w with issued := satInc w.issued } →
      (∀ reason, stopped reason = { s.sweep with
        state := .idle, current := none, holder := none, run := some w'
        table := putAt s.sweep.table i (some r), ended := some (reason, s.now) }) →
      ∀ answers : Sweep → List Notice → Prop, (∀ sweep ns, answers sweep ns ↔
        exec (.stepAudit n id) s = .next (((s.setSweep sweep).setNotice n { s.notice n with
            queue := (s.notice n).queue ++ ns, attention := true
            summary := ns.foldl (fun m x => m ||| ((1 : BitVec 32) <<< x.body.code))
              (s.notice n).summary }).answered n id 0x51 .done (u8 i.val))) →
      ((s.notice n).queue.length < 31 → w.budget ≠ 0 → w.budget.toNat ≤ w'.issued.toNat →
        answers (stopped .budget) [placed, ends w'.issued w.pass .budget]) ∧
      (w.budget = 0 ∨ w'.issued.toNat < w.budget.toNat →
        ((s.notice n).queue.length < 31 → i = w.last →
          answers (stopped .done) [placed, ends w'.issued w.pass .done]) ∧
        ((s.notice n).queue.length < 32 → i ≠ w.last →
          answers { s.sweep with
            state := .pausedStep, current := some (i + 1), holder := none, run := some w'
            table := putAt s.sweep.table i (some r) } [placed])) ∧
      (32 ≤ (s.notice n).queue.length →
        exec (.stepAudit n id) s = .next (((s.setSweep { s.sweep with
            state := .pausedFull, holder := some r
            table := putAt s.sweep.table i (some r) }).setNotice n { s.notice n with
            summary := (s.notice n).summary ||| 0x8000 }).answered n id 0x51 .done (u8 i.val)))) ∧
    (∀ (last : Slot) (mode : AuditMode) (k : DriveTag), s.live n = true → s.sweep.state = .idle →
      (s.notice n).queue.length < 32 → mode ≠ .stepped → i ≠ last →
      (s.bay (i + 1)).state = .ready ∨ (s.bay (i + 1)).state = .suspect →
      (s.slot (i + 1)).phase = .unowned ∨ (s.slot (i + 1)).phase = .owned ∨
        (s.slot (i + 1)).phase = .claimed →
      (s.engine (i + 1)).waiting = [] → lowestFree (s.engine (i + 1)).tags = some k →
      ∃ t, exec (.startAudit n id i last (BitVec.ofNat 8 (auditModeCode mode)) 0) s = .next t ∧
        (t.notice n).queue = (s.notice n).queue ++ [placed] ∧
        t.sweep = { state := .probing, holder := none, ended := none, current := some (i + 1)
                    probe := some (.dispatched k (s.now + 10000))
                    table := putAt s.sweep.table i (some r)
                    run := some { requester := n, first := i, last := last, mode := mode, budget := 0
                                  issued := 1, pass := 0, startTick := s.now } } ∧
        t.engine (i + 1) = { s.engine (i + 1) with
          probeRequest := false, tags := (s.engine (i + 1)).tags ++ [⟨k, .probe true⟩] } ∧
        (t.port n).unsent = (s.port n).unsent ++ [.rsp id 0x50 .done
          (u8 ((last - i).val + 1) ++ u16 1)] ∧
        t.slots = s.slots ∧ t.bays = s.bays)

/-- STOP_AUDIT by the requester ends its sweep with STOPPED: the results issued are answered, AUDIT_ENDED is
raised, a held result is lost and a dispatched probe is no longer expected. A sweep also ends with its
requester: LEASE_LOST when the lease expires or the node sends LEAVE, PORT_DOWN when its port goes DOWN and
the lease runs on, RESTARTED by the requester's own START_AUDIT of a running ONCE sweep, whose AUDIT_ENDED
precedes the new sweep. Where the lease is lost the node's batch does not gather and its partner is not live.
The refusals of the audit requests: START_AUDIT with an unknown mode, without a live lease, with notices off,
or while a sweep runs that is not the requester's own ONCE sweep; STEP_AUDIT and STOP_AUDIT with no sweep
running or another node's, and STEP_AUDIT outside PAUSED_STEP. That the current slot leaves the record is the
model's choice (log 35). -/
def Obligations.SweepEndsAndAuditRefusals : Prop :=
  (∀ (s : State) (n : Node) (id : BitVec 16) (w : SweepRun), s.Takes n → s.sweep.state ≠ .idle →
      s.sweep.run = some w → w.requester = n →
      ∀ ended : Sweep, ended = { s.sweep with
        state := .idle, current := none, probe := none, holder := none, ended := some (.stopped, s.now) } →
      (s.sweep.probe = none →
        exec (.stopAudit n id) s = .next (((s.setSweep ended).raise n none
          (.auditEnded .stopped w.issued w.pass)).answered n id 0x52 .done (countItem w.issued))) ∧
      (∀ i k d, s.sweep.current = some i → s.sweep.probe = some (.dispatched k d) →
        exec (.stopAudit n id) s = .next ((((s.setEngine i { s.engine i with
            tags := (s.engine i).tags.map (fun e =>
              if e.tag = k ∧ e.isProbe = true then { e with role := .probe false } else e) }).setSweep
            ended).raise n none (.auditEnded .stopped w.issued w.pass)).answered n id 0x52 .done
          (countItem w.issued)))) ∧
  (∀ (s : State) (n : Node) (id : BitVec 16), s.Takes n →
      (∀ (first last : Slot) (mode budget : Byte),
        ∀ answer : Result → Prop, (∀ r, answer r ↔
          exec (.startAudit n id first last mode budget) s = .next (s.answered n id 0x50 r [])) →
        (mode = 0 ∨ 4 < mode.toNat → answer .badRequest) ∧
        (mode ≠ 0 → mode.toNat ≤ 4 →
          (s.live n = false → answer .noLease) ∧
          (s.live n = true → (s.notice n).on = false → answer .noticesOff) ∧
          (∀ w, s.live n = true → (s.notice n).on = true → s.sweep.state ≠ .idle → s.sweep.run = some w →
            w.requester ≠ n ∨ w.mode ≠ .once → answer .busy))) ∧
      (s.sweep.state = .idle →
        exec (.stepAudit n id) s = .next (s.answered n id 0x51 .wrongState []) ∧
        exec (.stopAudit n id) s = .next (s.answered n id 0x52 .wrongState [])) ∧
      (s.sweep.state ≠ .idle → s.sweep.runsFor n = false →
        exec (.stepAudit n id) s = .next (s.answered n id 0x51 .notOwner []) ∧
        exec (.stopAudit n id) s = .next (s.answered n id 0x52 .notOwner [])) ∧
      (s.sweep.state = .probing ∨ s.sweep.state = .pausedFull → s.sweep.runsFor n = true →
        exec (.stepAudit n id) s = .next (s.answered n id 0x51 .wrongState []))) ∧
  (∀ (s : State) (n : Node) (id : BitVec 16) (w : SweepRun), s.Takes n → s.sweep.state ≠ .idle →
      s.sweep.run = some w → w.requester = n → (s.notice n).on = true → (s.notice n).mask = 0 →
      (s.notice n).queue.length < 32 →
      ∀ ends : EndReason → State → Prop, (∀ reason t, ends reason t ↔
        (t.notice n).queue = (s.notice n).queue ++ [{ slot := none, tick := s.now
                                                      body := .auditEnded reason w.issued w.pass }] ∧
        t.slots = s.slots ∧ t.bays = s.bays) →
      ∀ idle : EndReason → State → Prop, (∀ reason t, idle reason t ↔ ends reason t ∧
        t.sweep = { s.sweep with state := .idle, current := none, probe := none, holder := none
                                 ended := some (reason, s.now) } ∧
        (∀ i, s.sweep.current = some i → ∀ k d, s.sweep.probe = some (.dispatched k d) →
          t.engine i = { s.engine i with tags := (s.engine i).tags.map (fun e =>
            if e.tag = k ∧ e.isProbe = true then { e with role := .probe false } else e) }) ∧
        (∀ i, s.sweep.current = some i → s.sweep.probe = some .requested →
          t.engine i = { s.engine i with probeRequest := false }) ∧
        (∀ i, s.sweep.current ≠ some i → t.engine i = s.engine i)) →
      (s.live n = true → (s.batch n).state ≠ .gathering → s.live n.partner = false →
        ((s.lease n).expiry = some s.now →
          ∃ t, exec (.expiryDeadline n) s = .next t ∧ idle .leaseLost t) ∧
        (∃ t, exec (.leave n id) s = .next t ∧ idle .leaseLost t)) ∧
      ((s.lease n).fastExpiry = false ∨ s.live n = false →
        ∃ t, exec (.nodeLinkLoss n) s = .next t ∧ idle .portDown t) ∧
      (∀ (i last : Slot) (mode : AuditMode) (budget : Byte) (k : DriveTag), s.live n = true →
        w.mode = .once → (s.bay i).state = .ready ∨ (s.bay i).state = .suspect →
        (s.slot i).phase = .unowned ∨ (s.slot i).phase = .owned ∨ (s.slot i).phase = .claimed →
        (s.engine i).waiting = [] → lowestFree (s.engine i).tags = some k →
        ∃ t, exec (.startAudit n id i last (BitVec.ofNat 8 (auditModeCode mode)) budget) s = .next t ∧
          ends .restarted t ∧
          t.sweep = { s.sweep with
            state := .probing, holder := none, ended := none, current := some i
            probe := some (.dispatched k (s.now + 10000))
            run := some { requester := n, first := i, last := last, mode := mode, budget := budget
                          issued := 0, pass := 0, startTick := s.now } }))

/-- At the last slot of a sweep that is not CYCLIC and has no budget, the probe limit gives NO_RESPONSE and
leaves the tag unexpected, and a good answer gives MATCHED where it fits the recorded fingerprint, a SUSPECT
bay then becoming READY without its presented fingerprint: the result stands in the table and in the
requester's queue, AUDIT_ENDED follows it, and the sweep is IDLE with DONE. An answer with a status or with
capacity 0 gives PROBE_FAILED. A good answer that differs gives SWAPPED at an owned slot, whose READY bay
becomes SUSPECT, ends its waiting commands CHECK_DRIVE and tells both nodes before the result, and NEW_DRIVE
at a slot with no owner, which records it. An answer frees the tag, and a READY bay serves the commands that
wait. A probe, requested or dispatched, that a removal ends gives ABSENT, and one that a link reset ends gives
NOT_PROBED with the bay RESETTING; the result ends the sweep at its last slot, pauses a STEPPED one at the
next slot, and stays in the holder of a PAUSED_FULL sweep where the requester's queue is full. At the last
slot of a CYCLIC sweep the walk goes on at the first slot and the pass rises. The model's choices or readings:
a PROBE_FAILED result carries the fingerprint where the status is 0 (log 9); a MATCHED answer leaves the
capacity as it is (log 29); the result goes behind DRIVE_SUSPECT and DRIVE_REMOVED (log 12); the order of the
CPLs (logs 12 and 26); the current slot leaves the record of the ended sweep (log 35). -/
def Obligations.ProbeIsSettledByLimitOrAnswer : Prop :=
  (∀ (s : State) (i : Slot) (k : DriveTag) (d : Tick) (w : SweepRun), s.running = true →
      s.sweep.state = .probing → s.sweep.current = some i → s.sweep.probe = some (.dispatched k d) →
      s.sweep.run = some w → w.last = i → w.mode ≠ .cyclic → w.budget = 0 →
      (s.notice w.requester).on = true → (s.notice w.requester).mask = 0 →
      (s.notice w.requester).queue.length < 31 → s.Still i → (s.engine i).probeRequest = false →
      ∀ e : Engine, e = { s.engine i with
        tags := (s.engine i).tags.filter (fun x => decide (x.tag ≠ k)) } →
      ∀ served : State → Prop, (∀ t, served t ↔
        ((t.bay i).state = .ready → s.Serves i e [] t) ∧
        ((t.bay i).state = .suspect → t.driveOut = s.driveOut ∧
          t.engine i = { e with waiting := if (s.bay i).state = .ready then [] else e.waiting })) →
      ∀ result : AuditOutcome → Option Fingerprint → AuditResult,
      (∀ o fp, result o fp = { slot := i, outcome := o, owner := (s.slot i).owner
                               generation := (s.slot i).generation, phase := (s.slot i).phase
                               bayState := (s.bay i).state, fingerprint := fp, driveStatus := none
                               tick := s.now }) →
      ∀ settled : AuditResult → State → Prop,
      (∀ r t, settled r t ↔
        t.sweep.state = .idle ∧ t.sweep.ended = some (.done, s.now) ∧ t.sweep.table[i] = some r ∧
        t.sweep.current = none ∧ t.sweep.probe = none ∧ t.sweep.holder = none ∧
        (t.notice w.requester).queue = (s.notice w.requester).queue ++
          [{ slot := some i, tick := s.now
             body := .auditResult r.outcome r.owner r.generation r.phase r.bayState },
           { slot := none, tick := s.now, body := .auditEnded .done (satInc w.issued) w.pass }] ∧
        t.slots = s.slots ∧ t.bays = s.bays ∧ t.ports = s.ports) →
      (d = s.now → ∃ t, exec .probeDeadline s = .next t ∧ settled (result .noResponse none) t ∧
        t.engine i = { s.engine i with tags := (s.engine i).tags.map (fun e =>
          if e.tag = k ∧ e.isProbe = true then { e with role := .probe false } else e) }) ∧
      (∀ fp cap, (s.bay i).state = .ready → (s.bay i).recorded = some fp → cap ≠ 0 →
        (s.engine i).entry k.val = some ⟨k, .probe true⟩ →
        ∃ t, exec (.driveCompletion i k.val 0 fp cap) s = .next t ∧ settled (result .matched (some fp)) t ∧
          served t) ∧
      (∀ st fp cap, st ≠ 0 ∨ cap = 0 → (s.engine i).entry k.val = some ⟨k, .probe true⟩ →
        ∃ t, exec (.driveCompletion i k.val st fp cap) s = .next t ∧
          settled { result .probeFailed (if st = 0 then some fp else none) with driveStatus := some st } t ∧
          ((s.bay i).state = .ready → s.Serves i e [] t) ∧
          ((s.bay i).state ≠ .ready → t.engine i = e ∧ t.driveOut = s.driveOut)) ∧
      (∀ fp cap, cap ≠ 0 → (s.engine i).entry k.val = some ⟨k, .probe true⟩ →
        ∀ judged : AuditResult → List Notice → Bay → (Node → List NodeFrame) → Prop,
        (∀ r ns b frames, judged r ns b frames ↔
          ∃ t, exec (.driveCompletion i k.val 0 fp cap) s = .next t ∧ t.sweep.state = .idle ∧
            t.sweep.ended = some (.done, s.now) ∧ t.sweep.table[i] = some r ∧ t.slots = s.slots ∧
            t.bay i = b ∧ served t ∧
            (∀ n, (s.port n).state = .up → (t.port n).unsent = (s.port n).unsent ++ frames n) ∧
            (∀ x, x = w.requester.partner → (s.notice x).on = true → (s.notice x).mask = 0 →
              (s.notice x).queue.length < 32 → (t.notice x).queue = (s.notice x).queue ++ ns) ∧
            (t.notice w.requester).queue = (s.notice w.requester).queue ++ ns ++
              [{ slot := some i, tick := s.now
                 body := .auditResult r.outcome r.owner r.generation r.phase r.bayState },
               { slot := none, tick := s.now, body := .auditEnded .done (satInc w.issued) w.pass }]) →
        (∀ x, (s.bay i).state = .ready → (s.bay i).recorded = some x → x ≠ fp →
          (s.slot i).owner.isSome → (s.notice w.requester).queue.length < 30 →
          judged { result .swapped (some fp) with bayState := .suspect }
            [{ slot := some i, tick := s.now, body := .driveSuspect fp }]
            { s.bay i with state := .suspect, presented := some fp, capacity := some cap }
            (fun n => cplsFor n i .checkDrive (s.slot i).generation (s.engine i).waiting)) ∧
        ((s.bay i).state = .suspect → (s.bay i).recorded = some fp →
          judged { result .matched (some fp) with bayState := .ready } []
            { s.bay i with state := .ready, presented := none } (fun _ => [])) ∧
        (∀ x, (s.bay i).state = .suspect → (s.bay i).recorded = some x → x ≠ fp →
          (s.slot i).owner.isSome →
          judged (result .swapped (some fp)) []
            { s.bay i with presented := some fp, capacity := some cap } (fun _ => [])) ∧
        ((s.bay i).state = .ready ∨ (s.bay i).state = .suspect → (s.bay i).recorded ≠ some fp →
          (s.slot i).owner = none →
          judged { result .newDrive (some fp) with bayState := .ready } []
            { s.bay i with
              state := .ready, recorded := some fp, presented := none, capacity := some cap }
            (fun _ => [])))) ∧
  (∀ (s : State) (i : Slot) (p : Probe) (w : SweepRun), s.running = true → s.sweep.state = .probing →
      s.sweep.current = some i → s.sweep.probe = some p → s.sweep.run = some w → w.budget = 0 →
      (s.notice w.requester).on = true → (s.notice w.requester).mask = 0 → s.Still i →
      (s.bay i).state = .ready ∨ (s.bay i).state = .suspect →
      ∀ ended : Instr → AuditOutcome → BayState → List Command → List Notice →
        (Node → List NodeFrame) → Prop,
      (∀ c o b waiting ns frames, ended c o b waiting ns frames ↔
        ∀ (r : AuditResult) (w' : SweepRun) (table : Vector (Option AuditResult) 8) (placed : Notice),
          r = { slot := i, outcome := o, owner := (s.slot i).owner, generation := (s.slot i).generation
                phase := (s.slot i).phase, bayState := b, fingerprint := none, driveStatus := none
                tick := s.now } →
          w' = { w with issued := satInc w.issued } → table = putAt s.sweep.table i (some r) →
          placed = { slot := some i, tick := s.now
                     body := .auditResult o r.owner r.generation r.phase b } →
          ∃ t, exec c s = .next t ∧ (t.bay i).state = b ∧ t.slots = s.slots ∧
            t.engine i = { s.engine i with waiting := waiting, tags := [], probeRequest := false } ∧
            (∀ n, (s.port n).state = .up → (t.port n).unsent = (s.port n).unsent ++ frames n) ∧
            ((s.notice w.requester).queue.length + ns.length < 31 → w.last = i → w.mode ≠ .cyclic →
              t.sweep = { s.sweep with
                state := .idle, current := none, probe := none, holder := none, run := some w'
                table := table, ended := some (.done, s.now) } ∧
              (t.notice w.requester).queue = (s.notice w.requester).queue ++ ns ++
                [placed, { slot := none, tick := s.now, body := .auditEnded .done w'.issued w.pass }]) ∧
            ((s.notice w.requester).queue.length + ns.length < 32 → w.last ≠ i → w.mode = .stepped →
              t.sweep = { s.sweep with
                state := .pausedStep, current := some (i + 1), probe := none, holder := none
                run := some w', table := table } ∧
              (t.notice w.requester).queue = (s.notice w.requester).queue ++ ns ++ [placed]) ∧
            (32 ≤ (s.notice w.requester).queue.length + ns.length →
              t.sweep = { s.sweep with
                state := .pausedFull, probe := none, holder := some r, table := table } ∧
              (t.notice w.requester).queue = (s.notice w.requester).queue ++
                if (s.notice w.requester).queue.length < 32 then ns else [])) →
      ∀ aborted : Node → List NodeFrame, (∀ n, aborted n =
        cplsFor n i .abortedReset (s.slot i).generation (activeCommands (s.engine i).tags)) →
      ((s.bay i).debounce = some s.now → (s.bay i).input = false →
        ended (.removal i) .absent .empty [] [{ slot := some i, tick := s.now
                                                body := .driveRemoved (s.bay i).state }]
          (fun n => cplsFor n i .driveRemoved (s.slot i).generation
            (activeCommands (s.engine i).tags ++ (s.engine i).waiting))) ∧
      ended (.driveLinkLoss i) .notProbed .resetting (s.engine i).waiting [] aborted ∧
      (∀ n id, s.Takes n → s.live n = true → (s.slot i).phase = .owned → (s.slot i).owner = some n →
        ended (.resetDrive n id i) .notProbed .resetting (s.engine i).waiting [] (fun m =>
          aborted m ++ if m = n then [.rsp id 0x29 .done
            (tickItem (s.now + BitVec.ofNat 32 (s.timing.resetLimit * 10)))] else []))) ∧
  (∀ (s : State) (i : Slot) (k k' : DriveTag) (w : SweepRun), s.running = true →
    s.sweep.state = .probing → s.sweep.current = some i →
    s.sweep.probe = some (.dispatched k s.now) → s.sweep.run = some w → w.last = i →
    w.mode = .cyclic → w.budget = 0 → w.first ≠ i →
    (s.notice w.requester).on = true → (s.notice w.requester).queue.length < 32 →
    (s.bay w.first).state = .ready ∨ (s.bay w.first).state = .suspect →
    (s.slot w.first).phase = .unowned ∨ (s.slot w.first).phase = .owned ∨
      (s.slot w.first).phase = .claimed →
    (s.engine w.first).waiting = [] → lowestFree (s.engine w.first).tags = some k' →
    ∃ t, exec .probeDeadline s = .next t ∧ t.sweep.state = .probing ∧ t.sweep.current = some w.first ∧
      t.sweep.probe = some (.dispatched k' (s.now + 10000)) ∧
      t.sweep.run = some { w with issued := satInc w.issued, pass := satInc w.pass } ∧
      t.engine w.first = { s.engine w.first with
        probeRequest := false, tags := (s.engine w.first).tags ++ [⟨k', .probe true⟩] } ∧
      (t.notice w.requester).queue = (s.notice w.requester).queue ++
        [{ slot := some i, tick := s.now
           body := .auditResult .noResponse (s.slot i).owner (s.slot i).generation (s.slot i).phase
             (s.bay i).state }])

/-! ### Power and reset -/

/-- RESET_ASSERT and POWER_FAIL stop a running controller: both ports are DOWN with nothing to send or
await, attention is deasserted, a reset holds every drive link, the update queue is empty and each store
record stands but the one being written, which holds its old or its new content, whichever the free value
of log 7 says. What POWER_FAIL does to ports and attention is the model's choice: the spec speaks of the reset
input alone (log 38). -/
def Obligations.ResetAndPowerFailStopTheController : Prop :=
  ∀ s : State, s.running = true →
    ∀ stopped : State → Prop,
    (∀ t, stopped t ↔
      t.running = false ∧
      (∀ n, (t.port n).state = .down ∧ (t.port n).unsent = [] ∧ (t.port n).awaiting = [] ∧
        (t.notice n).attention = false) ∧
      t.store.mode = .ready ∧ t.store.queue = [] ∧ t.pending = s.pending ∧
      ∀ i : Slot, t.store.records[i] = s.store.records[i] ∨
        ∃ u k d, s.store.mode = .writing u k d ∧ u.slot = i ∧ t.store.records[i] =
          { owner := u.owner, generation := u.generation, fingerprint := u.fingerprint, intact := true }) →
    (∃ t, exec .resetAssert s = .next t ∧ stopped t ∧ t.power = { powered := true, resetAsserted := true } ∧
      ∀ i, (t.bay i).linkHeld = true) ∧
    (∃ t, exec .powerFail s = .next t ∧ stopped t ∧ t.power = { powered := false, resetAsserted := false })

/-- RESET_RELEASE of an asserted reset, and POWER_ON with the reset input released, start the controller:
every slot restores from its record, a record that fails its check as NONE and store-lost, the bays by
their presence inputs, and every other block at its start-up values; the store's records and the waiting
commands stand. No write is in progress then. -/
def Obligations.StartUpRestoresFromTheStore : Prop :=
  ∀ s : State, s.store.mode = .ready →
    ∀ started : State → Prop,
    (∀ t, started t ↔
      t.power = { powered := true, resetAsserted := false } ∧ t.pending = s.pending ∧
      t.time = { tick := 0, source := .fallback, measured := 0, qualified := false, grace := true } ∧
      (∀ i : Slot, ∀ r : StoreRec, r = s.store.records[i] → t.store.records[i] = r ∧
        t.slot i = { phase := if r.intact = true ∧ r.owner.isSome then .owned else .unowned
                     owner := if r.intact then r.owner else none
                     generation := if r.intact then r.generation else 0
                     target := none, path := none, batch := none, policy := .auto, quota := ⟨16, 16⟩
                     autoPending := none, drainDeadline := none, storeLost := !r.intact, former := none } ∧
        (t.bay i).recorded = (if r.intact then r.fingerprint else none) ∧
        (t.bay i).state = (if (s.bay i).input then .bringup else .empty) ∧
        (t.bay i).present = (s.bay i).input ∧
        (t.bay i).bringupDeadline = (if (s.bay i).input then some 100000 else none) ∧
        (t.bay i).linkHeld = false ∧
        t.engine i = Engine.initial ∧ t.report i = none ∧ t.store.lostSet.getLsbD i.val = !r.intact) ∧
      (∀ n, t.lease n = Lease.initial ∧ t.batch n = Batch.initial ∧ t.notice n = NoticeQueue.initial ∧
        t.port n = Port.initial) ∧
      (∀ k, t.window k = Window.initial) ∧ t.timing = Timing.initial ∧ t.sweep = Sweep.initial ∧
      t.store.mode = .ready ∧ t.store.queue = []) →
    (s.power = { powered := true, resetAsserted := true } →
      ∃ t, exec .resetRelease s = .next t ∧ started t) ∧
    (s.power = { powered := false, resetAsserted := false } →
      ∃ t, exec .powerOn s = .next t ∧ started t)

end
end

