-- ==== Sys2Proof/Laws/State.lean ====
section
/-! SUPPORT. Reading after an update: one lemma per field per update of the state. -/

namespace Sys2Proof

@[simp] theorem Node.partner_partner (n : Node) : n.partner.partner = n := by cases n <;> rfl
@[simp] theorem Node.partner_ne (n : Node) : n.partner ≠ n := by cases n <;> decide
@[simp] theorem Node.ne_partner (n : Node) : n ≠ n.partner := by cases n <;> decide
theorem Node.eq_or_partner (m n : Node) : m = n ∨ m = n.partner := by cases m <;> cases n <;> decide

/-- Reading a pair after a write. -/
theorem Pair.get_put {α : Type} (p : Pair α) (n m : Node) (x : α) :
    (p.put n x).get m = if m = n then x else p.get m := by
  cases n <;> cases m <;> rfl
@[simp] theorem Pair.get_put_same {α : Type} (p : Pair α) (n : Node) (x : α) : (p.put n x).get n = x := by
  cases n <;> rfl
@[simp] theorem Pair.get_put_partner {α : Type} (p : Pair α) (n : Node) (x : α) :
    (p.put n x).get n.partner = p.get n.partner := by
  cases n <;> rfl
@[simp] theorem Pair.put_put {α : Type} (p : Pair α) (n : Node) (x y : α) :
    (p.put n x).put n y = p.put n y := by
  cases n <;> rfl
theorem Pair.ext_get {α : Type} {p q : Pair α} (h : ∀ n, p.get n = q.get n) : p = q := by
  cases p; cases q
  have a := h .a
  have b := h .b
  simp only [Pair.get] at a b
  rw [a, b]

/-- Reading a table after a write. -/
theorem putAt_get {α : Type} {k : Nat} (v : Vector α k) (i j : Fin k) (x : α) :
    (putAt v i x)[j] = if j = i then x else v[j] := by
  simp only [putAt, Fin.getElem_fin, Vector.getElem_set]
  simp only [Fin.ext_iff, eq_comm]
@[simp] theorem putAt_get_same {α : Type} {k : Nat} (v : Vector α k) (i : Fin k) (x : α) :
    (putAt v i x)[i] = x := by
  rw [putAt_get]; simp
@[simp] theorem putAt_putAt {α : Type} {k : Nat} (v : Vector α k) (i : Fin k) (x y : α) :
    putAt (putAt v i x) i y = putAt v i y := by
  simp [putAt]

end Sys2Proof

namespace Sys2Proof.Machine

/-- Reading a table that holds a value for each slot. -/
@[simp] theorem tabulate_get {α : Type} (f : Slot → α) (i : Slot) : (tabulate f)[i] = f i := by
  fin_cases i <;> rfl

/-! ### Every record of the state, after each update -/


/-! `setSlot` -/

@[simp] theorem State.setSlot_power (s : State) (i : Slot) (r : SlotRec) : (s.setSlot i r).power = s.power := rfl
@[simp] theorem State.setSlot_leases (s : State) (i : Slot) (r : SlotRec) : (s.setSlot i r).leases = s.leases := rfl
@[simp] theorem State.setSlot_time (s : State) (i : Slot) (r : SlotRec) : (s.setSlot i r).time = s.time := rfl
@[simp] theorem State.setSlot_engines (s : State) (i : Slot) (r : SlotRec) : (s.setSlot i r).engines = s.engines := rfl
@[simp] theorem State.setSlot_windows (s : State) (i : Slot) (r : SlotRec) : (s.setSlot i r).windows = s.windows := rfl
@[simp] theorem State.setSlot_batches (s : State) (i : Slot) (r : SlotRec) : (s.setSlot i r).batches = s.batches := rfl
@[simp] theorem State.setSlot_timing (s : State) (i : Slot) (r : SlotRec) : (s.setSlot i r).timing = s.timing := rfl
@[simp] theorem State.setSlot_reports (s : State) (i : Slot) (r : SlotRec) : (s.setSlot i r).reports = s.reports := rfl
@[simp] theorem State.setSlot_bays (s : State) (i : Slot) (r : SlotRec) : (s.setSlot i r).bays = s.bays := rfl
@[simp] theorem State.setSlot_driveOut (s : State) (i : Slot) (r : SlotRec) : (s.setSlot i r).driveOut = s.driveOut := rfl
@[simp] theorem State.setSlot_sweep (s : State) (i : Slot) (r : SlotRec) : (s.setSlot i r).sweep = s.sweep := rfl
@[simp] theorem State.setSlot_notices (s : State) (i : Slot) (r : SlotRec) : (s.setSlot i r).notices = s.notices := rfl
@[simp] theorem State.setSlot_ports (s : State) (i : Slot) (r : SlotRec) : (s.setSlot i r).ports = s.ports := rfl
@[simp] theorem State.setSlot_store (s : State) (i : Slot) (r : SlotRec) : (s.setSlot i r).store = s.store := rfl
@[simp] theorem State.setSlot_freeCount (s : State) (i : Slot) (r : SlotRec) : (s.setSlot i r).freeCount = s.freeCount := rfl
@[simp] theorem State.setSlot_pending (s : State) (i : Slot) (r : SlotRec) : (s.setSlot i r).pending = s.pending := rfl
@[simp] theorem State.setSlot_now (s : State) (i : Slot) (r : SlotRec) : (s.setSlot i r).now = s.now := rfl
@[simp] theorem State.setSlot_running (s : State) (i : Slot) (r : SlotRec) : (s.setSlot i r).running = s.running := rfl
@[simp] theorem State.setSlot_lease (s : State) (i : Slot) (r : SlotRec) (m : Node) : (s.setSlot i r).lease m = s.lease m := rfl
@[simp] theorem State.setSlot_engine (s : State) (i : Slot) (r : SlotRec) (j : Slot) : (s.setSlot i r).engine j = s.engine j := rfl
@[simp] theorem State.setSlot_batch (s : State) (i : Slot) (r : SlotRec) (m : Node) : (s.setSlot i r).batch m = s.batch m := rfl
@[simp] theorem State.setSlot_report (s : State) (i : Slot) (r : SlotRec) (j : Slot) : (s.setSlot i r).report j = s.report j := rfl
@[simp] theorem State.setSlot_bay (s : State) (i : Slot) (r : SlotRec) (j : Slot) : (s.setSlot i r).bay j = s.bay j := rfl
@[simp] theorem State.setSlot_notice (s : State) (i : Slot) (r : SlotRec) (m : Node) : (s.setSlot i r).notice m = s.notice m := rfl
@[simp] theorem State.setSlot_port (s : State) (i : Slot) (r : SlotRec) (m : Node) : (s.setSlot i r).port m = s.port m := rfl
@[simp] theorem State.setSlot_window (s : State) (i : Slot) (r : SlotRec) (h : Fin 4) : (s.setSlot i r).window h = s.window h := rfl
theorem State.setSlot_slot (s : State) (i : Slot) (r : SlotRec) (j : Slot) :
    (s.setSlot i r).slot j = if j = i then r else s.slot j := putAt_get _ _ _ _
@[simp] theorem State.setSlot_slot_same (s : State) (i : Slot) (r : SlotRec) : (s.setSlot i r).slot i = r := by
  rw [State.setSlot_slot]; simp

/-! `setLease` -/

@[simp] theorem State.setLease_power (s : State) (n : Node) (l : Lease) : (s.setLease n l).power = s.power := rfl
@[simp] theorem State.setLease_slots (s : State) (n : Node) (l : Lease) : (s.setLease n l).slots = s.slots := rfl
@[simp] theorem State.setLease_time (s : State) (n : Node) (l : Lease) : (s.setLease n l).time = s.time := rfl
@[simp] theorem State.setLease_engines (s : State) (n : Node) (l : Lease) : (s.setLease n l).engines = s.engines := rfl
@[simp] theorem State.setLease_windows (s : State) (n : Node) (l : Lease) : (s.setLease n l).windows = s.windows := rfl
@[simp] theorem State.setLease_batches (s : State) (n : Node) (l : Lease) : (s.setLease n l).batches = s.batches := rfl
@[simp] theorem State.setLease_timing (s : State) (n : Node) (l : Lease) : (s.setLease n l).timing = s.timing := rfl
@[simp] theorem State.setLease_reports (s : State) (n : Node) (l : Lease) : (s.setLease n l).reports = s.reports := rfl
@[simp] theorem State.setLease_bays (s : State) (n : Node) (l : Lease) : (s.setLease n l).bays = s.bays := rfl
@[simp] theorem State.setLease_driveOut (s : State) (n : Node) (l : Lease) : (s.setLease n l).driveOut = s.driveOut := rfl
@[simp] theorem State.setLease_sweep (s : State) (n : Node) (l : Lease) : (s.setLease n l).sweep = s.sweep := rfl
@[simp] theorem State.setLease_notices (s : State) (n : Node) (l : Lease) : (s.setLease n l).notices = s.notices := rfl
@[simp] theorem State.setLease_ports (s : State) (n : Node) (l : Lease) : (s.setLease n l).ports = s.ports := rfl
@[simp] theorem State.setLease_store (s : State) (n : Node) (l : Lease) : (s.setLease n l).store = s.store := rfl
@[simp] theorem State.setLease_freeCount (s : State) (n : Node) (l : Lease) : (s.setLease n l).freeCount = s.freeCount := rfl
@[simp] theorem State.setLease_pending (s : State) (n : Node) (l : Lease) : (s.setLease n l).pending = s.pending := rfl
@[simp] theorem State.setLease_now (s : State) (n : Node) (l : Lease) : (s.setLease n l).now = s.now := rfl
@[simp] theorem State.setLease_running (s : State) (n : Node) (l : Lease) : (s.setLease n l).running = s.running := rfl
@[simp] theorem State.setLease_slot (s : State) (n : Node) (l : Lease) (j : Slot) : (s.setLease n l).slot j = s.slot j := rfl
@[simp] theorem State.setLease_engine (s : State) (n : Node) (l : Lease) (j : Slot) : (s.setLease n l).engine j = s.engine j := rfl
@[simp] theorem State.setLease_batch (s : State) (n : Node) (l : Lease) (m : Node) : (s.setLease n l).batch m = s.batch m := rfl
@[simp] theorem State.setLease_report (s : State) (n : Node) (l : Lease) (j : Slot) : (s.setLease n l).report j = s.report j := rfl
@[simp] theorem State.setLease_bay (s : State) (n : Node) (l : Lease) (j : Slot) : (s.setLease n l).bay j = s.bay j := rfl
@[simp] theorem State.setLease_notice (s : State) (n : Node) (l : Lease) (m : Node) : (s.setLease n l).notice m = s.notice m := rfl
@[simp] theorem State.setLease_port (s : State) (n : Node) (l : Lease) (m : Node) : (s.setLease n l).port m = s.port m := rfl
@[simp] theorem State.setLease_window (s : State) (n : Node) (l : Lease) (h : Fin 4) : (s.setLease n l).window h = s.window h := rfl
theorem State.setLease_lease (s : State) (n : Node) (l : Lease) (m : Node) :
    (s.setLease n l).lease m = if m = n then l else s.lease m := Pair.get_put _ _ _ _
@[simp] theorem State.setLease_lease_same (s : State) (n : Node) (l : Lease) : (s.setLease n l).lease n = l := by
  rw [State.setLease_lease]; simp

/-! `setEngine` -/

@[simp] theorem State.setEngine_power (s : State) (i : Slot) (e : Engine) : (s.setEngine i e).power = s.power := rfl
@[simp] theorem State.setEngine_slots (s : State) (i : Slot) (e : Engine) : (s.setEngine i e).slots = s.slots := rfl
@[simp] theorem State.setEngine_leases (s : State) (i : Slot) (e : Engine) : (s.setEngine i e).leases = s.leases := rfl
@[simp] theorem State.setEngine_time (s : State) (i : Slot) (e : Engine) : (s.setEngine i e).time = s.time := rfl
@[simp] theorem State.setEngine_windows (s : State) (i : Slot) (e : Engine) : (s.setEngine i e).windows = s.windows := rfl
@[simp] theorem State.setEngine_batches (s : State) (i : Slot) (e : Engine) : (s.setEngine i e).batches = s.batches := rfl
@[simp] theorem State.setEngine_timing (s : State) (i : Slot) (e : Engine) : (s.setEngine i e).timing = s.timing := rfl
@[simp] theorem State.setEngine_reports (s : State) (i : Slot) (e : Engine) : (s.setEngine i e).reports = s.reports := rfl
@[simp] theorem State.setEngine_bays (s : State) (i : Slot) (e : Engine) : (s.setEngine i e).bays = s.bays := rfl
@[simp] theorem State.setEngine_driveOut (s : State) (i : Slot) (e : Engine) : (s.setEngine i e).driveOut = s.driveOut := rfl
@[simp] theorem State.setEngine_sweep (s : State) (i : Slot) (e : Engine) : (s.setEngine i e).sweep = s.sweep := rfl
@[simp] theorem State.setEngine_notices (s : State) (i : Slot) (e : Engine) : (s.setEngine i e).notices = s.notices := rfl
@[simp] theorem State.setEngine_ports (s : State) (i : Slot) (e : Engine) : (s.setEngine i e).ports = s.ports := rfl
@[simp] theorem State.setEngine_store (s : State) (i : Slot) (e : Engine) : (s.setEngine i e).store = s.store := rfl
@[simp] theorem State.setEngine_freeCount (s : State) (i : Slot) (e : Engine) : (s.setEngine i e).freeCount = s.freeCount := rfl
@[simp] theorem State.setEngine_pending (s : State) (i : Slot) (e : Engine) : (s.setEngine i e).pending = s.pending := rfl
@[simp] theorem State.setEngine_now (s : State) (i : Slot) (e : Engine) : (s.setEngine i e).now = s.now := rfl
@[simp] theorem State.setEngine_running (s : State) (i : Slot) (e : Engine) : (s.setEngine i e).running = s.running := rfl
@[simp] theorem State.setEngine_slot (s : State) (i : Slot) (e : Engine) (j : Slot) : (s.setEngine i e).slot j = s.slot j := rfl
@[simp] theorem State.setEngine_lease (s : State) (i : Slot) (e : Engine) (m : Node) : (s.setEngine i e).lease m = s.lease m := rfl
@[simp] theorem State.setEngine_batch (s : State) (i : Slot) (e : Engine) (m : Node) : (s.setEngine i e).batch m = s.batch m := rfl
@[simp] theorem State.setEngine_report (s : State) (i : Slot) (e : Engine) (j : Slot) : (s.setEngine i e).report j = s.report j := rfl
@[simp] theorem State.setEngine_bay (s : State) (i : Slot) (e : Engine) (j : Slot) : (s.setEngine i e).bay j = s.bay j := rfl
@[simp] theorem State.setEngine_notice (s : State) (i : Slot) (e : Engine) (m : Node) : (s.setEngine i e).notice m = s.notice m := rfl
@[simp] theorem State.setEngine_port (s : State) (i : Slot) (e : Engine) (m : Node) : (s.setEngine i e).port m = s.port m := rfl
@[simp] theorem State.setEngine_window (s : State) (i : Slot) (e : Engine) (h : Fin 4) : (s.setEngine i e).window h = s.window h := rfl
theorem State.setEngine_engine (s : State) (i : Slot) (e : Engine) (j : Slot) :
    (s.setEngine i e).engine j = if j = i then e else s.engine j := putAt_get _ _ _ _
@[simp] theorem State.setEngine_engine_same (s : State) (i : Slot) (e : Engine) : (s.setEngine i e).engine i = e := by
  rw [State.setEngine_engine]; simp

/-! `setBatch` -/

@[simp] theorem State.setBatch_power (s : State) (n : Node) (b : Batch) : (s.setBatch n b).power = s.power := rfl
@[simp] theorem State.setBatch_slots (s : State) (n : Node) (b : Batch) : (s.setBatch n b).slots = s.slots := rfl
@[simp] theorem State.setBatch_leases (s : State) (n : Node) (b : Batch) : (s.setBatch n b).leases = s.leases := rfl
@[simp] theorem State.setBatch_time (s : State) (n : Node) (b : Batch) : (s.setBatch n b).time = s.time := rfl
@[simp] theorem State.setBatch_engines (s : State) (n : Node) (b : Batch) : (s.setBatch n b).engines = s.engines := rfl
@[simp] theorem State.setBatch_windows (s : State) (n : Node) (b : Batch) : (s.setBatch n b).windows = s.windows := rfl
@[simp] theorem State.setBatch_timing (s : State) (n : Node) (b : Batch) : (s.setBatch n b).timing = s.timing := rfl
@[simp] theorem State.setBatch_reports (s : State) (n : Node) (b : Batch) : (s.setBatch n b).reports = s.reports := rfl
@[simp] theorem State.setBatch_bays (s : State) (n : Node) (b : Batch) : (s.setBatch n b).bays = s.bays := rfl
@[simp] theorem State.setBatch_driveOut (s : State) (n : Node) (b : Batch) : (s.setBatch n b).driveOut = s.driveOut := rfl
@[simp] theorem State.setBatch_sweep (s : State) (n : Node) (b : Batch) : (s.setBatch n b).sweep = s.sweep := rfl
@[simp] theorem State.setBatch_notices (s : State) (n : Node) (b : Batch) : (s.setBatch n b).notices = s.notices := rfl
@[simp] theorem State.setBatch_ports (s : State) (n : Node) (b : Batch) : (s.setBatch n b).ports = s.ports := rfl
@[simp] theorem State.setBatch_store (s : State) (n : Node) (b : Batch) : (s.setBatch n b).store = s.store := rfl
@[simp] theorem State.setBatch_freeCount (s : State) (n : Node) (b : Batch) : (s.setBatch n b).freeCount = s.freeCount := rfl
@[simp] theorem State.setBatch_pending (s : State) (n : Node) (b : Batch) : (s.setBatch n b).pending = s.pending := rfl
@[simp] theorem State.setBatch_now (s : State) (n : Node) (b : Batch) : (s.setBatch n b).now = s.now := rfl
@[simp] theorem State.setBatch_running (s : State) (n : Node) (b : Batch) : (s.setBatch n b).running = s.running := rfl
@[simp] theorem State.setBatch_slot (s : State) (n : Node) (b : Batch) (j : Slot) : (s.setBatch n b).slot j = s.slot j := rfl
@[simp] theorem State.setBatch_lease (s : State) (n : Node) (b : Batch) (m : Node) : (s.setBatch n b).lease m = s.lease m := rfl
@[simp] theorem State.setBatch_engine (s : State) (n : Node) (b : Batch) (j : Slot) : (s.setBatch n b).engine j = s.engine j := rfl
@[simp] theorem State.setBatch_report (s : State) (n : Node) (b : Batch) (j : Slot) : (s.setBatch n b).report j = s.report j := rfl
@[simp] theorem State.setBatch_bay (s : State) (n : Node) (b : Batch) (j : Slot) : (s.setBatch n b).bay j = s.bay j := rfl
@[simp] theorem State.setBatch_notice (s : State) (n : Node) (b : Batch) (m : Node) : (s.setBatch n b).notice m = s.notice m := rfl
@[simp] theorem State.setBatch_port (s : State) (n : Node) (b : Batch) (m : Node) : (s.setBatch n b).port m = s.port m := rfl
@[simp] theorem State.setBatch_window (s : State) (n : Node) (b : Batch) (h : Fin 4) : (s.setBatch n b).window h = s.window h := rfl
theorem State.setBatch_batch (s : State) (n : Node) (b : Batch) (m : Node) :
    (s.setBatch n b).batch m = if m = n then b else s.batch m := Pair.get_put _ _ _ _
@[simp] theorem State.setBatch_batch_same (s : State) (n : Node) (b : Batch) : (s.setBatch n b).batch n = b := by
  rw [State.setBatch_batch]; simp

/-! `setReport` -/

@[simp] theorem State.setReport_power (s : State) (i : Slot) (r : Option Report) : (s.setReport i r).power = s.power := rfl
@[simp] theorem State.setReport_slots (s : State) (i : Slot) (r : Option Report) : (s.setReport i r).slots = s.slots := rfl
@[simp] theorem State.setReport_leases (s : State) (i : Slot) (r : Option Report) : (s.setReport i r).leases = s.leases := rfl
@[simp] theorem State.setReport_time (s : State) (i : Slot) (r : Option Report) : (s.setReport i r).time = s.time := rfl
@[simp] theorem State.setReport_engines (s : State) (i : Slot) (r : Option Report) : (s.setReport i r).engines = s.engines := rfl
@[simp] theorem State.setReport_windows (s : State) (i : Slot) (r : Option Report) : (s.setReport i r).windows = s.windows := rfl
@[simp] theorem State.setReport_batches (s : State) (i : Slot) (r : Option Report) : (s.setReport i r).batches = s.batches := rfl
@[simp] theorem State.setReport_timing (s : State) (i : Slot) (r : Option Report) : (s.setReport i r).timing = s.timing := rfl
@[simp] theorem State.setReport_bays (s : State) (i : Slot) (r : Option Report) : (s.setReport i r).bays = s.bays := rfl
@[simp] theorem State.setReport_driveOut (s : State) (i : Slot) (r : Option Report) : (s.setReport i r).driveOut = s.driveOut := rfl
@[simp] theorem State.setReport_sweep (s : State) (i : Slot) (r : Option Report) : (s.setReport i r).sweep = s.sweep := rfl
@[simp] theorem State.setReport_notices (s : State) (i : Slot) (r : Option Report) : (s.setReport i r).notices = s.notices := rfl
@[simp] theorem State.setReport_ports (s : State) (i : Slot) (r : Option Report) : (s.setReport i r).ports = s.ports := rfl
@[simp] theorem State.setReport_store (s : State) (i : Slot) (r : Option Report) : (s.setReport i r).store = s.store := rfl
@[simp] theorem State.setReport_freeCount (s : State) (i : Slot) (r : Option Report) : (s.setReport i r).freeCount = s.freeCount := rfl
@[simp] theorem State.setReport_pending (s : State) (i : Slot) (r : Option Report) : (s.setReport i r).pending = s.pending := rfl
@[simp] theorem State.setReport_now (s : State) (i : Slot) (r : Option Report) : (s.setReport i r).now = s.now := rfl
@[simp] theorem State.setReport_running (s : State) (i : Slot) (r : Option Report) : (s.setReport i r).running = s.running := rfl
@[simp] theorem State.setReport_slot (s : State) (i : Slot) (r : Option Report) (j : Slot) : (s.setReport i r).slot j = s.slot j := rfl
@[simp] theorem State.setReport_lease (s : State) (i : Slot) (r : Option Report) (m : Node) : (s.setReport i r).lease m = s.lease m := rfl
@[simp] theorem State.setReport_engine (s : State) (i : Slot) (r : Option Report) (j : Slot) : (s.setReport i r).engine j = s.engine j := rfl
@[simp] theorem State.setReport_batch (s : State) (i : Slot) (r : Option Report) (m : Node) : (s.setReport i r).batch m = s.batch m := rfl
@[simp] theorem State.setReport_bay (s : State) (i : Slot) (r : Option Report) (j : Slot) : (s.setReport i r).bay j = s.bay j := rfl
@[simp] theorem State.setReport_notice (s : State) (i : Slot) (r : Option Report) (m : Node) : (s.setReport i r).notice m = s.notice m := rfl
@[simp] theorem State.setReport_port (s : State) (i : Slot) (r : Option Report) (m : Node) : (s.setReport i r).port m = s.port m := rfl
@[simp] theorem State.setReport_window (s : State) (i : Slot) (r : Option Report) (h : Fin 4) : (s.setReport i r).window h = s.window h := rfl
theorem State.setReport_report (s : State) (i : Slot) (r : Option Report) (j : Slot) :
    (s.setReport i r).report j = if j = i then r else s.report j := putAt_get _ _ _ _
@[simp] theorem State.setReport_report_same (s : State) (i : Slot) (r : Option Report) : (s.setReport i r).report i = r := by
  rw [State.setReport_report]; simp

/-! `setBay` -/

@[simp] theorem State.setBay_power (s : State) (i : Slot) (b : Bay) : (s.setBay i b).power = s.power := rfl
@[simp] theorem State.setBay_slots (s : State) (i : Slot) (b : Bay) : (s.setBay i b).slots = s.slots := rfl
@[simp] theorem State.setBay_leases (s : State) (i : Slot) (b : Bay) : (s.setBay i b).leases = s.leases := rfl
@[simp] theorem State.setBay_time (s : State) (i : Slot) (b : Bay) : (s.setBay i b).time = s.time := rfl
@[simp] theorem State.setBay_engines (s : State) (i : Slot) (b : Bay) : (s.setBay i b).engines = s.engines := rfl
@[simp] theorem State.setBay_windows (s : State) (i : Slot) (b : Bay) : (s.setBay i b).windows = s.windows := rfl
@[simp] theorem State.setBay_batches (s : State) (i : Slot) (b : Bay) : (s.setBay i b).batches = s.batches := rfl
@[simp] theorem State.setBay_timing (s : State) (i : Slot) (b : Bay) : (s.setBay i b).timing = s.timing := rfl
@[simp] theorem State.setBay_reports (s : State) (i : Slot) (b : Bay) : (s.setBay i b).reports = s.reports := rfl
@[simp] theorem State.setBay_driveOut (s : State) (i : Slot) (b : Bay) : (s.setBay i b).driveOut = s.driveOut := rfl
@[simp] theorem State.setBay_sweep (s : State) (i : Slot) (b : Bay) : (s.setBay i b).sweep = s.sweep := rfl
@[simp] theorem State.setBay_notices (s : State) (i : Slot) (b : Bay) : (s.setBay i b).notices = s.notices := rfl
@[simp] theorem State.setBay_ports (s : State) (i : Slot) (b : Bay) : (s.setBay i b).ports = s.ports := rfl
@[simp] theorem State.setBay_store (s : State) (i : Slot) (b : Bay) : (s.setBay i b).store = s.store := rfl
@[simp] theorem State.setBay_freeCount (s : State) (i : Slot) (b : Bay) : (s.setBay i b).freeCount = s.freeCount := rfl
@[simp] theorem State.setBay_pending (s : State) (i : Slot) (b : Bay) : (s.setBay i b).pending = s.pending := rfl
@[simp] theorem State.setBay_now (s : State) (i : Slot) (b : Bay) : (s.setBay i b).now = s.now := rfl
@[simp] theorem State.setBay_running (s : State) (i : Slot) (b : Bay) : (s.setBay i b).running = s.running := rfl
@[simp] theorem State.setBay_slot (s : State) (i : Slot) (b : Bay) (j : Slot) : (s.setBay i b).slot j = s.slot j := rfl
@[simp] theorem State.setBay_lease (s : State) (i : Slot) (b : Bay) (m : Node) : (s.setBay i b).lease m = s.lease m := rfl
@[simp] theorem State.setBay_engine (s : State) (i : Slot) (b : Bay) (j : Slot) : (s.setBay i b).engine j = s.engine j := rfl
@[simp] theorem State.setBay_batch (s : State) (i : Slot) (b : Bay) (m : Node) : (s.setBay i b).batch m = s.batch m := rfl
@[simp] theorem State.setBay_report (s : State) (i : Slot) (b : Bay) (j : Slot) : (s.setBay i b).report j = s.report j := rfl
@[simp] theorem State.setBay_notice (s : State) (i : Slot) (b : Bay) (m : Node) : (s.setBay i b).notice m = s.notice m := rfl
@[simp] theorem State.setBay_port (s : State) (i : Slot) (b : Bay) (m : Node) : (s.setBay i b).port m = s.port m := rfl
@[simp] theorem State.setBay_window (s : State) (i : Slot) (b : Bay) (h : Fin 4) : (s.setBay i b).window h = s.window h := rfl
theorem State.setBay_bay (s : State) (i : Slot) (b : Bay) (j : Slot) :
    (s.setBay i b).bay j = if j = i then b else s.bay j := putAt_get _ _ _ _
@[simp] theorem State.setBay_bay_same (s : State) (i : Slot) (b : Bay) : (s.setBay i b).bay i = b := by
  rw [State.setBay_bay]; simp

/-! `setNotice` -/

@[simp] theorem State.setNotice_power (s : State) (n : Node) (q : NoticeQueue) : (s.setNotice n q).power = s.power := rfl
@[simp] theorem State.setNotice_slots (s : State) (n : Node) (q : NoticeQueue) : (s.setNotice n q).slots = s.slots := rfl
@[simp] theorem State.setNotice_leases (s : State) (n : Node) (q : NoticeQueue) : (s.setNotice n q).leases = s.leases := rfl
@[simp] theorem State.setNotice_time (s : State) (n : Node) (q : NoticeQueue) : (s.setNotice n q).time = s.time := rfl
@[simp] theorem State.setNotice_engines (s : State) (n : Node) (q : NoticeQueue) : (s.setNotice n q).engines = s.engines := rfl
@[simp] theorem State.setNotice_windows (s : State) (n : Node) (q : NoticeQueue) : (s.setNotice n q).windows = s.windows := rfl
@[simp] theorem State.setNotice_batches (s : State) (n : Node) (q : NoticeQueue) : (s.setNotice n q).batches = s.batches := rfl
@[simp] theorem State.setNotice_timing (s : State) (n : Node) (q : NoticeQueue) : (s.setNotice n q).timing = s.timing := rfl
@[simp] theorem State.setNotice_reports (s : State) (n : Node) (q : NoticeQueue) : (s.setNotice n q).reports = s.reports := rfl
@[simp] theorem State.setNotice_bays (s : State) (n : Node) (q : NoticeQueue) : (s.setNotice n q).bays = s.bays := rfl
@[simp] theorem State.setNotice_driveOut (s : State) (n : Node) (q : NoticeQueue) : (s.setNotice n q).driveOut = s.driveOut := rfl
@[simp] theorem State.setNotice_sweep (s : State) (n : Node) (q : NoticeQueue) : (s.setNotice n q).sweep = s.sweep := rfl
@[simp] theorem State.setNotice_ports (s : State) (n : Node) (q : NoticeQueue) : (s.setNotice n q).ports = s.ports := rfl
@[simp] theorem State.setNotice_store (s : State) (n : Node) (q : NoticeQueue) : (s.setNotice n q).store = s.store := rfl
@[simp] theorem State.setNotice_freeCount (s : State) (n : Node) (q : NoticeQueue) : (s.setNotice n q).freeCount = s.freeCount := rfl
@[simp] theorem State.setNotice_pending (s : State) (n : Node) (q : NoticeQueue) : (s.setNotice n q).pending = s.pending := rfl
@[simp] theorem State.setNotice_now (s : State) (n : Node) (q : NoticeQueue) : (s.setNotice n q).now = s.now := rfl
@[simp] theorem State.setNotice_running (s : State) (n : Node) (q : NoticeQueue) : (s.setNotice n q).running = s.running := rfl
@[simp] theorem State.setNotice_slot (s : State) (n : Node) (q : NoticeQueue) (j : Slot) : (s.setNotice n q).slot j = s.slot j := rfl
@[simp] theorem State.setNotice_lease (s : State) (n : Node) (q : NoticeQueue) (m : Node) : (s.setNotice n q).lease m = s.lease m := rfl
@[simp] theorem State.setNotice_engine (s : State) (n : Node) (q : NoticeQueue) (j : Slot) : (s.setNotice n q).engine j = s.engine j := rfl
@[simp] theorem State.setNotice_batch (s : State) (n : Node) (q : NoticeQueue) (m : Node) : (s.setNotice n q).batch m = s.batch m := rfl
@[simp] theorem State.setNotice_report (s : State) (n : Node) (q : NoticeQueue) (j : Slot) : (s.setNotice n q).report j = s.report j := rfl
@[simp] theorem State.setNotice_bay (s : State) (n : Node) (q : NoticeQueue) (j : Slot) : (s.setNotice n q).bay j = s.bay j := rfl
@[simp] theorem State.setNotice_port (s : State) (n : Node) (q : NoticeQueue) (m : Node) : (s.setNotice n q).port m = s.port m := rfl
@[simp] theorem State.setNotice_window (s : State) (n : Node) (q : NoticeQueue) (h : Fin 4) : (s.setNotice n q).window h = s.window h := rfl
theorem State.setNotice_notice (s : State) (n : Node) (q : NoticeQueue) (m : Node) :
    (s.setNotice n q).notice m = if m = n then q else s.notice m := Pair.get_put _ _ _ _
@[simp] theorem State.setNotice_notice_same (s : State) (n : Node) (q : NoticeQueue) : (s.setNotice n q).notice n = q := by
  rw [State.setNotice_notice]; simp

/-! `setPort` -/

@[simp] theorem State.setPort_power (s : State) (n : Node) (p : Port) : (s.setPort n p).power = s.power := rfl
@[simp] theorem State.setPort_slots (s : State) (n : Node) (p : Port) : (s.setPort n p).slots = s.slots := rfl
@[simp] theorem State.setPort_leases (s : State) (n : Node) (p : Port) : (s.setPort n p).leases = s.leases := rfl
@[simp] theorem State.setPort_time (s : State) (n : Node) (p : Port) : (s.setPort n p).time = s.time := rfl
@[simp] theorem State.setPort_engines (s : State) (n : Node) (p : Port) : (s.setPort n p).engines = s.engines := rfl
@[simp] theorem State.setPort_windows (s : State) (n : Node) (p : Port) : (s.setPort n p).windows = s.windows := rfl
@[simp] theorem State.setPort_batches (s : State) (n : Node) (p : Port) : (s.setPort n p).batches = s.batches := rfl
@[simp] theorem State.setPort_timing (s : State) (n : Node) (p : Port) : (s.setPort n p).timing = s.timing := rfl
@[simp] theorem State.setPort_reports (s : State) (n : Node) (p : Port) : (s.setPort n p).reports = s.reports := rfl
@[simp] theorem State.setPort_bays (s : State) (n : Node) (p : Port) : (s.setPort n p).bays = s.bays := rfl
@[simp] theorem State.setPort_driveOut (s : State) (n : Node) (p : Port) : (s.setPort n p).driveOut = s.driveOut := rfl
@[simp] theorem State.setPort_sweep (s : State) (n : Node) (p : Port) : (s.setPort n p).sweep = s.sweep := rfl
@[simp] theorem State.setPort_notices (s : State) (n : Node) (p : Port) : (s.setPort n p).notices = s.notices := rfl
@[simp] theorem State.setPort_store (s : State) (n : Node) (p : Port) : (s.setPort n p).store = s.store := rfl
@[simp] theorem State.setPort_freeCount (s : State) (n : Node) (p : Port) : (s.setPort n p).freeCount = s.freeCount := rfl
@[simp] theorem State.setPort_pending (s : State) (n : Node) (p : Port) : (s.setPort n p).pending = s.pending := rfl
@[simp] theorem State.setPort_now (s : State) (n : Node) (p : Port) : (s.setPort n p).now = s.now := rfl
@[simp] theorem State.setPort_running (s : State) (n : Node) (p : Port) : (s.setPort n p).running = s.running := rfl
@[simp] theorem State.setPort_slot (s : State) (n : Node) (p : Port) (j : Slot) : (s.setPort n p).slot j = s.slot j := rfl
@[simp] theorem State.setPort_lease (s : State) (n : Node) (p : Port) (m : Node) : (s.setPort n p).lease m = s.lease m := rfl
@[simp] theorem State.setPort_engine (s : State) (n : Node) (p : Port) (j : Slot) : (s.setPort n p).engine j = s.engine j := rfl
@[simp] theorem State.setPort_batch (s : State) (n : Node) (p : Port) (m : Node) : (s.setPort n p).batch m = s.batch m := rfl
@[simp] theorem State.setPort_report (s : State) (n : Node) (p : Port) (j : Slot) : (s.setPort n p).report j = s.report j := rfl
@[simp] theorem State.setPort_bay (s : State) (n : Node) (p : Port) (j : Slot) : (s.setPort n p).bay j = s.bay j := rfl
@[simp] theorem State.setPort_notice (s : State) (n : Node) (p : Port) (m : Node) : (s.setPort n p).notice m = s.notice m := rfl
@[simp] theorem State.setPort_window (s : State) (n : Node) (p : Port) (h : Fin 4) : (s.setPort n p).window h = s.window h := rfl
theorem State.setPort_port (s : State) (n : Node) (p : Port) (m : Node) :
    (s.setPort n p).port m = if m = n then p else s.port m := Pair.get_put _ _ _ _
@[simp] theorem State.setPort_port_same (s : State) (n : Node) (p : Port) : (s.setPort n p).port n = p := by
  rw [State.setPort_port]; simp

/-! `setWindow` -/

@[simp] theorem State.setWindow_power (s : State) (k : Fin 4) (w : Window) : (s.setWindow k w).power = s.power := rfl
@[simp] theorem State.setWindow_slots (s : State) (k : Fin 4) (w : Window) : (s.setWindow k w).slots = s.slots := rfl
@[simp] theorem State.setWindow_leases (s : State) (k : Fin 4) (w : Window) : (s.setWindow k w).leases = s.leases := rfl
@[simp] theorem State.setWindow_time (s : State) (k : Fin 4) (w : Window) : (s.setWindow k w).time = s.time := rfl
@[simp] theorem State.setWindow_engines (s : State) (k : Fin 4) (w : Window) : (s.setWindow k w).engines = s.engines := rfl
@[simp] theorem State.setWindow_batches (s : State) (k : Fin 4) (w : Window) : (s.setWindow k w).batches = s.batches := rfl
@[simp] theorem State.setWindow_timing (s : State) (k : Fin 4) (w : Window) : (s.setWindow k w).timing = s.timing := rfl
@[simp] theorem State.setWindow_reports (s : State) (k : Fin 4) (w : Window) : (s.setWindow k w).reports = s.reports := rfl
@[simp] theorem State.setWindow_bays (s : State) (k : Fin 4) (w : Window) : (s.setWindow k w).bays = s.bays := rfl
@[simp] theorem State.setWindow_driveOut (s : State) (k : Fin 4) (w : Window) : (s.setWindow k w).driveOut = s.driveOut := rfl
@[simp] theorem State.setWindow_sweep (s : State) (k : Fin 4) (w : Window) : (s.setWindow k w).sweep = s.sweep := rfl
@[simp] theorem State.setWindow_notices (s : State) (k : Fin 4) (w : Window) : (s.setWindow k w).notices = s.notices := rfl
@[simp] theorem State.setWindow_ports (s : State) (k : Fin 4) (w : Window) : (s.setWindow k w).ports = s.ports := rfl
@[simp] theorem State.setWindow_store (s : State) (k : Fin 4) (w : Window) : (s.setWindow k w).store = s.store := rfl
@[simp] theorem State.setWindow_freeCount (s : State) (k : Fin 4) (w : Window) : (s.setWindow k w).freeCount = s.freeCount := rfl
@[simp] theorem State.setWindow_pending (s : State) (k : Fin 4) (w : Window) : (s.setWindow k w).pending = s.pending := rfl
@[simp] theorem State.setWindow_now (s : State) (k : Fin 4) (w : Window) : (s.setWindow k w).now = s.now := rfl
@[simp] theorem State.setWindow_running (s : State) (k : Fin 4) (w : Window) : (s.setWindow k w).running = s.running := rfl
@[simp] theorem State.setWindow_slot (s : State) (k : Fin 4) (w : Window) (j : Slot) : (s.setWindow k w).slot j = s.slot j := rfl
@[simp] theorem State.setWindow_lease (s : State) (k : Fin 4) (w : Window) (m : Node) : (s.setWindow k w).lease m = s.lease m := rfl
@[simp] theorem State.setWindow_engine (s : State) (k : Fin 4) (w : Window) (j : Slot) : (s.setWindow k w).engine j = s.engine j := rfl
@[simp] theorem State.setWindow_batch (s : State) (k : Fin 4) (w : Window) (m : Node) : (s.setWindow k w).batch m = s.batch m := rfl
@[simp] theorem State.setWindow_report (s : State) (k : Fin 4) (w : Window) (j : Slot) : (s.setWindow k w).report j = s.report j := rfl
@[simp] theorem State.setWindow_bay (s : State) (k : Fin 4) (w : Window) (j : Slot) : (s.setWindow k w).bay j = s.bay j := rfl
@[simp] theorem State.setWindow_notice (s : State) (k : Fin 4) (w : Window) (m : Node) : (s.setWindow k w).notice m = s.notice m := rfl
@[simp] theorem State.setWindow_port (s : State) (k : Fin 4) (w : Window) (m : Node) : (s.setWindow k w).port m = s.port m := rfl
theorem State.setWindow_window (s : State) (k : Fin 4) (w : Window) (h : Fin 4) :
    (s.setWindow k w).window h = if h = k then w else s.window h := putAt_get _ _ _ _
@[simp] theorem State.setWindow_window_same (s : State) (k : Fin 4) (w : Window) : (s.setWindow k w).window k = w := by
  rw [State.setWindow_window]; simp

/-! `setSweep` -/

@[simp] theorem State.setSweep_power (s : State) (w : Sweep) : (s.setSweep w).power = s.power := rfl
@[simp] theorem State.setSweep_slots (s : State) (w : Sweep) : (s.setSweep w).slots = s.slots := rfl
@[simp] theorem State.setSweep_leases (s : State) (w : Sweep) : (s.setSweep w).leases = s.leases := rfl
@[simp] theorem State.setSweep_time (s : State) (w : Sweep) : (s.setSweep w).time = s.time := rfl
@[simp] theorem State.setSweep_engines (s : State) (w : Sweep) : (s.setSweep w).engines = s.engines := rfl
@[simp] theorem State.setSweep_windows (s : State) (w : Sweep) : (s.setSweep w).windows = s.windows := rfl
@[simp] theorem State.setSweep_batches (s : State) (w : Sweep) : (s.setSweep w).batches = s.batches := rfl
@[simp] theorem State.setSweep_timing (s : State) (w : Sweep) : (s.setSweep w).timing = s.timing := rfl
@[simp] theorem State.setSweep_reports (s : State) (w : Sweep) : (s.setSweep w).reports = s.reports := rfl
@[simp] theorem State.setSweep_bays (s : State) (w : Sweep) : (s.setSweep w).bays = s.bays := rfl
@[simp] theorem State.setSweep_driveOut (s : State) (w : Sweep) : (s.setSweep w).driveOut = s.driveOut := rfl
@[simp] theorem State.setSweep_notices (s : State) (w : Sweep) : (s.setSweep w).notices = s.notices := rfl
@[simp] theorem State.setSweep_ports (s : State) (w : Sweep) : (s.setSweep w).ports = s.ports := rfl
@[simp] theorem State.setSweep_store (s : State) (w : Sweep) : (s.setSweep w).store = s.store := rfl
@[simp] theorem State.setSweep_freeCount (s : State) (w : Sweep) : (s.setSweep w).freeCount = s.freeCount := rfl
@[simp] theorem State.setSweep_pending (s : State) (w : Sweep) : (s.setSweep w).pending = s.pending := rfl
@[simp] theorem State.setSweep_now (s : State) (w : Sweep) : (s.setSweep w).now = s.now := rfl
@[simp] theorem State.setSweep_running (s : State) (w : Sweep) : (s.setSweep w).running = s.running := rfl
@[simp] theorem State.setSweep_slot (s : State) (w : Sweep) (j : Slot) : (s.setSweep w).slot j = s.slot j := rfl
@[simp] theorem State.setSweep_lease (s : State) (w : Sweep) (m : Node) : (s.setSweep w).lease m = s.lease m := rfl
@[simp] theorem State.setSweep_engine (s : State) (w : Sweep) (j : Slot) : (s.setSweep w).engine j = s.engine j := rfl
@[simp] theorem State.setSweep_batch (s : State) (w : Sweep) (m : Node) : (s.setSweep w).batch m = s.batch m := rfl
@[simp] theorem State.setSweep_report (s : State) (w : Sweep) (j : Slot) : (s.setSweep w).report j = s.report j := rfl
@[simp] theorem State.setSweep_bay (s : State) (w : Sweep) (j : Slot) : (s.setSweep w).bay j = s.bay j := rfl
@[simp] theorem State.setSweep_notice (s : State) (w : Sweep) (m : Node) : (s.setSweep w).notice m = s.notice m := rfl
@[simp] theorem State.setSweep_port (s : State) (w : Sweep) (m : Node) : (s.setSweep w).port m = s.port m := rfl
@[simp] theorem State.setSweep_window (s : State) (w : Sweep) (h : Fin 4) : (s.setSweep w).window h = s.window h := rfl
@[simp] theorem State.setSweep_sweep (s : State) (w : Sweep) : (s.setSweep w).sweep = w := rfl

/-! `setStore` -/

@[simp] theorem State.setStore_power (s : State) (st : Store) : (s.setStore st).power = s.power := rfl
@[simp] theorem State.setStore_slots (s : State) (st : Store) : (s.setStore st).slots = s.slots := rfl
@[simp] theorem State.setStore_leases (s : State) (st : Store) : (s.setStore st).leases = s.leases := rfl
@[simp] theorem State.setStore_time (s : State) (st : Store) : (s.setStore st).time = s.time := rfl
@[simp] theorem State.setStore_engines (s : State) (st : Store) : (s.setStore st).engines = s.engines := rfl
@[simp] theorem State.setStore_windows (s : State) (st : Store) : (s.setStore st).windows = s.windows := rfl
@[simp] theorem State.setStore_batches (s : State) (st : Store) : (s.setStore st).batches = s.batches := rfl
@[simp] theorem State.setStore_timing (s : State) (st : Store) : (s.setStore st).timing = s.timing := rfl
@[simp] theorem State.setStore_reports (s : State) (st : Store) : (s.setStore st).reports = s.reports := rfl
@[simp] theorem State.setStore_bays (s : State) (st : Store) : (s.setStore st).bays = s.bays := rfl
@[simp] theorem State.setStore_driveOut (s : State) (st : Store) : (s.setStore st).driveOut = s.driveOut := rfl
@[simp] theorem State.setStore_sweep (s : State) (st : Store) : (s.setStore st).sweep = s.sweep := rfl
@[simp] theorem State.setStore_notices (s : State) (st : Store) : (s.setStore st).notices = s.notices := rfl
@[simp] theorem State.setStore_ports (s : State) (st : Store) : (s.setStore st).ports = s.ports := rfl
@[simp] theorem State.setStore_freeCount (s : State) (st : Store) : (s.setStore st).freeCount = s.freeCount := rfl
@[simp] theorem State.setStore_pending (s : State) (st : Store) : (s.setStore st).pending = s.pending := rfl
@[simp] theorem State.setStore_now (s : State) (st : Store) : (s.setStore st).now = s.now := rfl
@[simp] theorem State.setStore_running (s : State) (st : Store) : (s.setStore st).running = s.running := rfl
@[simp] theorem State.setStore_slot (s : State) (st : Store) (j : Slot) : (s.setStore st).slot j = s.slot j := rfl
@[simp] theorem State.setStore_lease (s : State) (st : Store) (m : Node) : (s.setStore st).lease m = s.lease m := rfl
@[simp] theorem State.setStore_engine (s : State) (st : Store) (j : Slot) : (s.setStore st).engine j = s.engine j := rfl
@[simp] theorem State.setStore_batch (s : State) (st : Store) (m : Node) : (s.setStore st).batch m = s.batch m := rfl
@[simp] theorem State.setStore_report (s : State) (st : Store) (j : Slot) : (s.setStore st).report j = s.report j := rfl
@[simp] theorem State.setStore_bay (s : State) (st : Store) (j : Slot) : (s.setStore st).bay j = s.bay j := rfl
@[simp] theorem State.setStore_notice (s : State) (st : Store) (m : Node) : (s.setStore st).notice m = s.notice m := rfl
@[simp] theorem State.setStore_port (s : State) (st : Store) (m : Node) : (s.setStore st).port m = s.port m := rfl
@[simp] theorem State.setStore_window (s : State) (st : Store) (h : Fin 4) : (s.setStore st).window h = s.window h := rfl
@[simp] theorem State.setStore_store (s : State) (st : Store) : (s.setStore st).store = st := rfl

/-! `setTime` -/

@[simp] theorem State.setTime_power (s : State) (t : Timebase) : (s.setTime t).power = s.power := rfl
@[simp] theorem State.setTime_slots (s : State) (t : Timebase) : (s.setTime t).slots = s.slots := rfl
@[simp] theorem State.setTime_leases (s : State) (t : Timebase) : (s.setTime t).leases = s.leases := rfl
@[simp] theorem State.setTime_engines (s : State) (t : Timebase) : (s.setTime t).engines = s.engines := rfl
@[simp] theorem State.setTime_windows (s : State) (t : Timebase) : (s.setTime t).windows = s.windows := rfl
@[simp] theorem State.setTime_batches (s : State) (t : Timebase) : (s.setTime t).batches = s.batches := rfl
@[simp] theorem State.setTime_timing (s : State) (t : Timebase) : (s.setTime t).timing = s.timing := rfl
@[simp] theorem State.setTime_reports (s : State) (t : Timebase) : (s.setTime t).reports = s.reports := rfl
@[simp] theorem State.setTime_bays (s : State) (t : Timebase) : (s.setTime t).bays = s.bays := rfl
@[simp] theorem State.setTime_driveOut (s : State) (t : Timebase) : (s.setTime t).driveOut = s.driveOut := rfl
@[simp] theorem State.setTime_sweep (s : State) (t : Timebase) : (s.setTime t).sweep = s.sweep := rfl
@[simp] theorem State.setTime_notices (s : State) (t : Timebase) : (s.setTime t).notices = s.notices := rfl
@[simp] theorem State.setTime_ports (s : State) (t : Timebase) : (s.setTime t).ports = s.ports := rfl
@[simp] theorem State.setTime_store (s : State) (t : Timebase) : (s.setTime t).store = s.store := rfl
@[simp] theorem State.setTime_freeCount (s : State) (t : Timebase) : (s.setTime t).freeCount = s.freeCount := rfl
@[simp] theorem State.setTime_pending (s : State) (t : Timebase) : (s.setTime t).pending = s.pending := rfl
@[simp] theorem State.setTime_now (s : State) (t : Timebase) : (s.setTime t).now = t.tick := rfl
@[simp] theorem State.setTime_running (s : State) (t : Timebase) : (s.setTime t).running = s.running := rfl
@[simp] theorem State.setTime_slot (s : State) (t : Timebase) (j : Slot) : (s.setTime t).slot j = s.slot j := rfl
@[simp] theorem State.setTime_lease (s : State) (t : Timebase) (m : Node) : (s.setTime t).lease m = s.lease m := rfl
@[simp] theorem State.setTime_engine (s : State) (t : Timebase) (j : Slot) : (s.setTime t).engine j = s.engine j := rfl
@[simp] theorem State.setTime_batch (s : State) (t : Timebase) (m : Node) : (s.setTime t).batch m = s.batch m := rfl
@[simp] theorem State.setTime_report (s : State) (t : Timebase) (j : Slot) : (s.setTime t).report j = s.report j := rfl
@[simp] theorem State.setTime_bay (s : State) (t : Timebase) (j : Slot) : (s.setTime t).bay j = s.bay j := rfl
@[simp] theorem State.setTime_notice (s : State) (t : Timebase) (m : Node) : (s.setTime t).notice m = s.notice m := rfl
@[simp] theorem State.setTime_port (s : State) (t : Timebase) (m : Node) : (s.setTime t).port m = s.port m := rfl
@[simp] theorem State.setTime_window (s : State) (t : Timebase) (h : Fin 4) : (s.setTime t).window h = s.window h := rfl
@[simp] theorem State.setTime_time (s : State) (t : Timebase) : (s.setTime t).time = t := rfl

/-! `toDrive` -/

@[simp] theorem State.toDrive_power (s : State) (i : Slot) (fs : List DriveFrame) : (s.toDrive i fs).power = s.power := rfl
@[simp] theorem State.toDrive_slots (s : State) (i : Slot) (fs : List DriveFrame) : (s.toDrive i fs).slots = s.slots := rfl
@[simp] theorem State.toDrive_leases (s : State) (i : Slot) (fs : List DriveFrame) : (s.toDrive i fs).leases = s.leases := rfl
@[simp] theorem State.toDrive_time (s : State) (i : Slot) (fs : List DriveFrame) : (s.toDrive i fs).time = s.time := rfl
@[simp] theorem State.toDrive_engines (s : State) (i : Slot) (fs : List DriveFrame) : (s.toDrive i fs).engines = s.engines := rfl
@[simp] theorem State.toDrive_windows (s : State) (i : Slot) (fs : List DriveFrame) : (s.toDrive i fs).windows = s.windows := rfl
@[simp] theorem State.toDrive_batches (s : State) (i : Slot) (fs : List DriveFrame) : (s.toDrive i fs).batches = s.batches := rfl
@[simp] theorem State.toDrive_timing (s : State) (i : Slot) (fs : List DriveFrame) : (s.toDrive i fs).timing = s.timing := rfl
@[simp] theorem State.toDrive_reports (s : State) (i : Slot) (fs : List DriveFrame) : (s.toDrive i fs).reports = s.reports := rfl
@[simp] theorem State.toDrive_bays (s : State) (i : Slot) (fs : List DriveFrame) : (s.toDrive i fs).bays = s.bays := rfl
@[simp] theorem State.toDrive_sweep (s : State) (i : Slot) (fs : List DriveFrame) : (s.toDrive i fs).sweep = s.sweep := rfl
@[simp] theorem State.toDrive_notices (s : State) (i : Slot) (fs : List DriveFrame) : (s.toDrive i fs).notices = s.notices := rfl
@[simp] theorem State.toDrive_ports (s : State) (i : Slot) (fs : List DriveFrame) : (s.toDrive i fs).ports = s.ports := rfl
@[simp] theorem State.toDrive_store (s : State) (i : Slot) (fs : List DriveFrame) : (s.toDrive i fs).store = s.store := rfl
@[simp] theorem State.toDrive_freeCount (s : State) (i : Slot) (fs : List DriveFrame) : (s.toDrive i fs).freeCount = s.freeCount := rfl
@[simp] theorem State.toDrive_pending (s : State) (i : Slot) (fs : List DriveFrame) : (s.toDrive i fs).pending = s.pending := rfl
@[simp] theorem State.toDrive_now (s : State) (i : Slot) (fs : List DriveFrame) : (s.toDrive i fs).now = s.now := rfl
@[simp] theorem State.toDrive_running (s : State) (i : Slot) (fs : List DriveFrame) : (s.toDrive i fs).running = s.running := rfl
@[simp] theorem State.toDrive_slot (s : State) (i : Slot) (fs : List DriveFrame) (j : Slot) : (s.toDrive i fs).slot j = s.slot j := rfl
@[simp] theorem State.toDrive_lease (s : State) (i : Slot) (fs : List DriveFrame) (m : Node) : (s.toDrive i fs).lease m = s.lease m := rfl
@[simp] theorem State.toDrive_engine (s : State) (i : Slot) (fs : List DriveFrame) (j : Slot) : (s.toDrive i fs).engine j = s.engine j := rfl
@[simp] theorem State.toDrive_batch (s : State) (i : Slot) (fs : List DriveFrame) (m : Node) : (s.toDrive i fs).batch m = s.batch m := rfl
@[simp] theorem State.toDrive_report (s : State) (i : Slot) (fs : List DriveFrame) (j : Slot) : (s.toDrive i fs).report j = s.report j := rfl
@[simp] theorem State.toDrive_bay (s : State) (i : Slot) (fs : List DriveFrame) (j : Slot) : (s.toDrive i fs).bay j = s.bay j := rfl
@[simp] theorem State.toDrive_notice (s : State) (i : Slot) (fs : List DriveFrame) (m : Node) : (s.toDrive i fs).notice m = s.notice m := rfl
@[simp] theorem State.toDrive_port (s : State) (i : Slot) (fs : List DriveFrame) (m : Node) : (s.toDrive i fs).port m = s.port m := rfl
@[simp] theorem State.toDrive_window (s : State) (i : Slot) (fs : List DriveFrame) (h : Fin 4) : (s.toDrive i fs).window h = s.window h := rfl
@[simp] theorem State.setSlot_setSlot (s : State) (i : Slot) (r r2 : SlotRec) :
    (s.setSlot i r).setSlot i r2 = s.setSlot i r2 := by
  simp [State.setSlot]
@[simp] theorem State.setEngine_setEngine (s : State) (i : Slot) (e e2 : Engine) :
    (s.setEngine i e).setEngine i e2 = s.setEngine i e2 := by
  simp [State.setEngine]
@[simp] theorem State.setBay_setBay (s : State) (i : Slot) (b b2 : Bay) :
    (s.setBay i b).setBay i b2 = s.setBay i b2 := by
  simp [State.setBay]
@[simp] theorem State.setLease_setLease (s : State) (n : Node) (l l2 : Lease) :
    (s.setLease n l).setLease n l2 = s.setLease n l2 := by
  simp [State.setLease]
@[simp] theorem State.setBatch_setBatch (s : State) (n : Node) (b b2 : Batch) :
    (s.setBatch n b).setBatch n b2 = s.setBatch n b2 := by
  simp [State.setBatch]
@[simp] theorem State.setNotice_setNotice (s : State) (n : Node) (q q2 : NoticeQueue) :
    (s.setNotice n q).setNotice n q2 = s.setNotice n q2 := by
  simp [State.setNotice]
@[simp] theorem State.setPort_setPort (s : State) (n : Node) (p p2 : Port) :
    (s.setPort n p).setPort n p2 = s.setPort n p2 := by
  simp [State.setPort]
@[simp] theorem State.setReport_setReport (s : State) (i : Slot) (r r2 : Option Report) :
    (s.setReport i r).setReport i r2 = s.setReport i r2 := by
  simp [State.setReport]

end Sys2Proof.Machine
end

