-- ==== Sys2Proof/Laws/Keeps.lean ====
section
/-! SUPPORT. What every operation keeps: the waiting commands, power and reset, and each of the
predicates of Safety.lean. `Keeps s t` is reflexive and transitive, so that an operation is settled by
the operations it is made of. -/

namespace Sys2Proof.Machine

/-- `t` follows from `s` without touching the queue of commands or the power, and keeps what holds. -/
structure Keeps (s t : State) : Prop where
  pending : t.pending = s.pending
  power : t.power = s.power
  slots : SlotsOk s → SlotsOk t
  leases : LeasesOk s → LeasesOk t
  engines : EnginesOk s → EnginesOk t
  windows : WindowsOk s → WindowsOk t
  owned : WindowsOwned s → WindowsOwned t
  bays : BaysOk s → BaysOk t
  notices : NoticesOk s → NoticesOk t
  ports : PortsOk s → PortsOk t
  store : StoreOk s → StoreOk t
  timing : TimingOk s → TimingOk t

theorem Keeps.refl (s : State) : Keeps s s := by constructor <;> first | rfl | exact id

theorem Keeps.trans {s t u : State} (h : Keeps s t) (k : Keeps t u) : Keeps s u where
  pending := k.pending.trans h.pending
  power := k.power.trans h.power
  slots := k.slots ∘ h.slots
  leases := k.leases ∘ h.leases
  engines := k.engines ∘ h.engines
  windows := k.windows ∘ h.windows
  owned := k.owned ∘ h.owned
  bays := k.bays ∘ h.bays
  notices := k.notices ∘ h.notices
  ports := k.ports ∘ h.ports
  store := k.store ∘ h.store
  timing := k.timing ∘ h.timing

theorem Keeps.ite {p : Prop} [Decidable p] {s t u : State} (h : p → Keeps s t) (k : ¬p → Keeps s u) :
    Keeps s (if p then t else u) := by
  split
  · exact h ‹_›
  · exact k ‹_›

/-- A fold of operations each of which keeps. -/
theorem Keeps.foldl {α : Type} {f : State → α → State} (h : ∀ s x, Keeps s (f s x)) (l : List α)
    (s : State) : Keeps s (l.foldl f s) := by
  induction l generalizing s with
  | nil => exact .refl s
  | cons x l ih => exact (h s x).trans (ih _)

/-! ### Replacing one record -/

theorem Keeps.setSlot {s : State} {i : Slot} {r : SlotRec} (h : (s.slot i).Ok → r.Ok)
    (hq : (∀ n, (s.slot i).quota.get n ≤ 32) → ∀ n, r.quota.get n ≤ 32)
    (ho : WindowsOwned s → ∀ k a, (s.window k).active = some a → a.slot = i → r.owner.isSome := by
      exact fun h k a hk he => by subst he; exact h k a hk) : Keeps s (s.setSlot i r) where
  pending := rfl
  power := rfl
  slots a j := by
    rw [State.setSlot_slot]
    split
    · exact h (a i)
    · exact a j
  leases := id
  engines a j := by
    refine ⟨(a j).1, ?_⟩
    rw [State.setSlot_slot]
    split
    · exact hq (a i).2
    · exact (a j).2
  windows := id
  owned a k w hk := by
    rw [State.setSlot_slot]
    split
    · exact ho a k w hk ‹_›
    · exact a k w hk
  bays := id
  notices := id
  ports := id
  store := id
  timing := id

theorem Keeps.setLease {s : State} {n : Node} {l : Lease} (h : (s.lease n).Ok → l.Ok) :
    Keeps s (s.setLease n l) where
  pending := rfl
  power := rfl
  slots := id
  leases a m := by
    rw [State.setLease_lease]
    split
    · exact h (a n)
    · exact a m
  engines := id
  windows := id
  owned := id
  bays := id
  notices := id
  ports := id
  store := id
  timing := id

theorem Keeps.setEngine {s : State} {i : Slot} {e : Engine} (h : (s.engine i).Ok → e.Ok) :
    Keeps s (s.setEngine i e) where
  pending := rfl
  power := rfl
  slots := id
  leases := id
  engines a j := by
    refine ⟨?_, (a j).2⟩
    rw [State.setEngine_engine]
    split
    · exact h (a i).1
    · exact (a j).1
  windows := id
  owned := id
  bays := id
  notices := id
  ports := id
  store := id
  timing := id

theorem Keeps.setBay {s : State} {i : Slot} {b : Bay} (h : (s.bay i).Ok → b.Ok) :
    Keeps s (s.setBay i b) where
  pending := rfl
  power := rfl
  slots := id
  leases := id
  engines := id
  windows := id
  owned := id
  bays a j := by
    rw [State.setBay_bay]
    split
    · exact h (a i)
    · exact a j
  notices := id
  ports := id
  store := id
  timing := id

theorem Keeps.setWindow {s : State} {k : Fin 4} {w : Window} (h : (s.window k).Ok → w.Ok)
    (ho : WindowsOwned s → ∀ a, w.active = some a → (s.slot a.slot).owner.isSome := by
      exact fun h a ha => h _ a ha) :
    Keeps s (s.setWindow k w) where
  pending := rfl
  power := rfl
  slots := id
  leases := id
  engines := id
  owned a j x hx := by
    rw [State.setWindow_window] at hx
    split at hx
    · exact ho a x hx
    · exact a j x hx
  windows a j := by
    rw [State.setWindow_window]
    split
    · exact h (a k)
    · exact a j
  bays := id
  notices := id
  ports := id
  store := id
  timing := id

theorem Keeps.setNotice {s : State} {n : Node} {q : NoticeQueue}
    (h : (s.notice n).Ok s.running → q.Ok s.running) : Keeps s (s.setNotice n q) where
  pending := rfl
  power := rfl
  slots := id
  leases := id
  engines := id
  windows := id
  owned := id
  bays := id
  notices a m := by
    rw [State.setNotice_notice, State.setNotice_running]
    split
    · exact h (a n)
    · exact a m
  ports := id
  store := id
  timing := id

theorem Keeps.setPort {s : State} {n : Node} {p : Port} (h : (s.port n).Ok → p.Ok) :
    Keeps s (s.setPort n p) where
  pending := rfl
  power := rfl
  slots := id
  leases := id
  engines := id
  windows := id
  owned := id
  bays := id
  notices := id
  ports a m := by
    rw [State.setPort_port]
    split
    · exact h (a n)
    · exact a m
  store := id
  timing := id

theorem Keeps.setStore {s : State} {st : Store} (h : s.store.Ok → st.Ok) : Keeps s (s.setStore st) where
  pending := rfl
  power := rfl
  slots := id
  leases := id
  engines := id
  windows := id
  owned := id
  bays := id
  notices := id
  ports := id
  store := h
  timing := id

theorem Keeps.setBatch (s : State) (n : Node) (b : Batch) : Keeps s (s.setBatch n b) := by
  constructor <;> first | rfl | exact id

theorem Keeps.setReport (s : State) (i : Slot) (r : Option Report) : Keeps s (s.setReport i r) := by
  constructor <;> first | rfl | exact id

theorem Keeps.setSweep (s : State) (w : Sweep) : Keeps s (s.setSweep w) := by
  constructor <;> first | rfl | exact id

theorem Keeps.setTime (s : State) (t : Timebase) : Keeps s (s.setTime t) := by
  constructor <;> first | rfl | exact id

theorem Keeps.toDrive (s : State) (i : Slot) (fs : List DriveFrame) : Keeps s (s.toDrive i fs) := by
  constructor <;> first | rfl | exact id

/-! ### Notices and frames -/

theorem NoticeQueue.push_ok {b : Bool} {q : NoticeQueue} (m : Notice) (h : q.Ok b) : (q.push m).Ok b := by
  obtain ⟨h1, h2, h3⟩ := h
  unfold NoticeQueue.push
  dsimp only
  split
  · exact ⟨h1, h2, h3⟩
  · rename_i hon
    have hq : q.on = true := by
      cases hb : q.on <;> simp [hb] at hon ⊢
    split
    · refine ⟨?_, ?_, ?_⟩
      · simp; omega
      · simp [hq]
      · simp [hq]
    · exact ⟨h1, h2, h3⟩

theorem Keeps.raise (s : State) (n : Node) (i : Option Slot) (b : NoticeBody) : Keeps s (s.raise n i b) :=
  .setNotice fun h => NoticeQueue.push_ok _ h

theorem Keeps.raiseBoth (s : State) (i : Option Slot) (b : NoticeBody) : Keeps s (s.raiseBoth i b) :=
  (Keeps.raise s .a i b).trans (.raise _ .b i b)

theorem Keeps.sendCpl (s : State) (n : Node) (i : Slot) (tag : Byte) (st : CplStatus) (d : BitVec 16) :
    Keeps s (s.sendCpl n i tag st d) := by
  unfold State.sendCpl
  refine .ite (fun h => .setPort fun _ h' => ?_) (fun _ => .setPort fun h h' => h h')
  simp [h] at h'

theorem Keeps.sendData (s : State) (n : Node) (i : Slot) (tag : Byte) (p : List Byte) :
    Keeps s (s.sendData n i tag p) := by
  unfold State.sendData
  refine .ite (fun h => .setPort fun _ h' => ?_) (fun _ => .setPort fun h h' => h h')
  simp [h] at h'

theorem Keeps.reply (s : State) (n : Node) (id : BitVec 16) (c : Byte) (r : Result) (d : List Byte) :
    Keeps s (s.reply n id c r d) := by
  unfold State.reply
  refine .ite (fun h => .setPort fun _ h' => ?_) (fun _ => .refl s)
  simp [h] at h'

/-! ### Windows and the store -/

theorem Window.clear_ok {w : Window} (c : ClearCause) (h : w.Ok) : (w.clear c).Ok := by
  unfold Window.clear
  split
  · exact ⟨by simp, fun _ => rfl⟩
  · exact h

/-- What a clear of a slot's windows leaves: the entries of the other slots, as they were. -/
theorem clearWindows_window (s : State) (i : Slot) (k : Fin 4) :
    (s.clearWindows i).window k = if (s.window k).onSlot i then (s.window k).clear .commit else s.window k := by
  have key : ∀ (l : List (Fin 4)) (v : Vector Window 4), l.Nodup →
      (l.foldl (fun v k => if v[k].onSlot i then putAt v k (v[k].clear .commit) else v) v)[k] =
        if k ∈ l ∧ v[k].onSlot i = true then v[k].clear .commit else v[k] := by
    intro l
    induction l with
    | nil => intro v _; simp
    | cons a l ih =>
      intro v hn
      obtain ⟨ha, hl⟩ := List.nodup_cons.1 hn
      rw [List.foldl_cons, ih _ hl]
      by_cases hk : k = a
      · subst hk
        simp only [ha, false_and, if_false, List.mem_cons, true_or, true_and]
        split
        · rw [putAt_get, if_pos rfl]
        · rfl
      · have e : (if v[a].onSlot i then putAt v a (v[a].clear .commit) else v)[k] = v[k] := by
          split
          · rw [putAt_get, if_neg hk]
          · rfl
        simp only [e, List.mem_cons, hk, false_or]
  have h := key allWindows s.windows (by decide)
  have hm : ∀ k : Fin 4, k ∈ allWindows := by decide
  simp only [hm, true_and] at h
  exact h

theorem clearWindows_active {s : State} {i : Slot} {k : Fin 4} {a : ActiveWindow}
    (h : ((s.clearWindows i).window k).active = some a) : (s.window k).active = some a ∧ a.slot ≠ i := by
  rw [clearWindows_window] at h
  split at h
  · unfold Window.clear at h
    split at h
    · cases h
    · rename_i hn
      rw [hn] at h
      cases h
  · rename_i hs
    refine ⟨h, fun he => hs ?_⟩
    simp [Window.onSlot, h, he]

theorem Keeps.clearWindows (s : State) (i : Slot) : Keeps s (s.clearWindows i) := by
  have key : ∀ (l : List (Fin 4)) (v : Vector Window 4), (∀ k : Fin 4, v[k].Ok) →
      ∀ k : Fin 4, (l.foldl (fun v k => if v[k].onSlot i then putAt v k (v[k].clear .commit) else v) v)[k].Ok := by
    intro l
    induction l with
    | nil => exact fun v h => h
    | cons a l ih =>
      intro v h
      refine ih _ fun k => ?_
      dsimp only
      split
      · rw [putAt_get]
        split
        · exact Window.clear_ok _ (h a)
        · exact h k
      · exact h k
  constructor
  case windows => exact fun h k => key allWindows s.windows h k
  case owned => exact fun h k a hk => h k a (clearWindows_active hk).1
  all_goals first | rfl | exact id

theorem enqueue_slots (u : Update) (l : List Update) :
    (enqueue u l).map Update.slot = if u.slot ∈ l.map Update.slot then l.map Update.slot
      else l.map Update.slot ++ [u.slot] := by
  induction l with
  | nil => rfl
  | cons v l ih =>
    unfold enqueue
    split
    · simp [*]
    · rename_i hne
      have : u.slot ≠ v.slot := fun e => hne e.symm
      simp only [List.map_cons, ih, List.mem_cons, this, false_or]
      split <;> simp

theorem enqueue_nodup {u : Update} {l : List Update} (h : (l.map Update.slot).Nodup) :
    ((enqueue u l).map Update.slot).Nodup := by
  rw [enqueue_slots]
  split
  · exact h
  · rename_i hn
    exact List.nodup_append.2 ⟨h, by simp, by
      simpa using fun a ha hs => hn (List.mem_map.2 ⟨a, ha, hs⟩)⟩

theorem Store.kick_ok {st : Store} {now : Tick} (h : (st.queue.map Update.slot).Nodup)
    (hm : match st.mode with
      | .ready => True
      | .writing _ k _ => 1 ≤ k ∧ k ≤ 3
      | .faulted => st.queue = []) : (st.kick now).Ok := by
  unfold Store.kick
  split
  · rename_i u rest e1 e2
    simp only [e2, List.map_cons, List.nodup_cons] at h
    exact ⟨h.2, by simp⟩
  · rename_i hno
    refine ⟨h, ?_⟩
    cases hs : st.mode with
    | ready =>
      cases hq : st.queue with
      | nil => rfl
      | cons u rest => exact absurd hq (hno u rest hs)
    | writing u k t => simpa [hs] using hm
    | faulted => simpa [hs] using hm

theorem Keeps.queueUpdate (s : State) (i : Slot) (w : Bool) : Keeps s (s.queueUpdate i w) := by
  unfold State.queueUpdate
  split
  · exact .refl s
  · rename_i hm
    refine .setStore fun h => Store.kick_ok (enqueue_nodup h.1) ?_
    have h2 := h.2
    cases hs : s.store.mode with
    | ready => trivial
    | writing u k t => simpa [hs] using h2
    | faulted => exact absurd hs hm

end Sys2Proof.Machine
end

