-- ==== Sys2Proof/Laws/Engine.lean ====
section
/-! SUPPORT. The Forwarding Engine: what dispatch, fences and ends of entries do to the waiting list,
the tag table and the outstanding commands. -/

namespace Sys2Proof.Machine

/-! ### Outstanding commands -/

theorem activeCommands_append (xs ys : List TagEntry) :
    activeCommands (xs ++ ys) = activeCommands xs ++ activeCommands ys := List.filterMap_append

theorem activeCommands_sublist {xs ys : List TagEntry} (h : xs.Sublist ys) :
    (activeCommands xs).Sublist (activeCommands ys) := h.filterMap _

theorem active_count (n : Node) (ts : List TagEntry) :
    (ts.filter (TagEntry.activeOf n)).length
      = ((activeCommands ts).map (fun c => (c.node, c.tag))).countP (fun x => decide (x.1 = n)) := by
  induction ts with
  | nil => rfl
  | cons t ts ih =>
    obtain ⟨k, role⟩ := t
    cases role with
    | active c d =>
      by_cases h : c.node = n <;> simp [activeCommands, TagEntry.activeOf, h] at ih ⊢ <;> omega
    | orphaned c d => simpa [activeCommands, TagEntry.activeOf] using ih
    | probe b => simpa [activeCommands, TagEntry.activeOf] using ih

/-- R46: an outstanding count is the number of a node's outstanding commands. -/
theorem Engine.outstanding_eq (e : Engine) (n : Node) :
    e.outstanding n = e.outstandingTags.countP (fun x => decide (x.1 = n)) := by
  rw [Engine.outstanding, Engine.outstandingTags, List.countP_append, active_count]
  congr 1
  rw [List.countP_map, List.countP_eq_length_filter]
  rfl

/-- An engine whose outstanding commands are among those of another is in order with it. -/
theorem Engine.Ok.mono {e e' : Engine} (h : e.Ok) (hw : e'.waiting.length ≤ e.waiting.length)
    (ht : (e'.tags.map TagEntry.tag).Nodup) (ho : e'.outstandingTags.Subperm e.outstandingTags) : e'.Ok := by
  obtain ⟨h1, h2, h3, h4⟩ := h
  refine ⟨by omega, ht, ?_, fun n => ?_⟩
  · obtain ⟨l, hp, hs⟩ := ho
    exact hp.nodup_iff.1 (hs.nodup h3)
  · have := h4 n
    rw [Engine.outstanding_eq] at this ⊢
    exact le_trans (ho.countP_le _) this

/-- The usual case: nothing new in either list. -/
theorem Engine.Ok.sublist {e e' : Engine} (h : e.Ok) (hw : e'.waiting.Sublist e.waiting)
    (ht : e'.tags.Sublist e.tags) : e'.Ok :=
  h.mono hw.length_le (ht.map _ |>.nodup h.2.1)
    ((hw.map _).append ((activeCommands_sublist ht).map _)).subperm

/-! ### Dispatch (R55, R56) -/

theorem lowestFree_free {ts : List TagEntry} {k : DriveTag} (h : lowestFree ts = some k) :
    k ∉ ts.map TagEntry.tag := by
  have := List.find?_some h
  simp only [List.all_eq_true, decide_eq_true_eq] at this
  intro hm
  obtain ⟨t, ht, he⟩ := List.mem_map.1 hm
  exact this t ht he

theorem tags_append_nodup {ts : List TagEntry} {k : DriveTag} {r : Role}
    (h : (ts.map TagEntry.tag).Nodup) (hk : k ∉ ts.map TagEntry.tag) :
    ((ts ++ [(⟨k, r⟩ : TagEntry)]).map TagEntry.tag).Nodup := by
  rw [List.map_append, List.nodup_append]
  exact ⟨h, by simp, by simpa using fun a ha he => hk (List.mem_map.2 ⟨a, ha, he⟩)⟩

/-- What `dispatchAll` can do: a suffix of the list stays, no tag is used twice, and the outstanding
commands are the same. -/
theorem dispatchAll_spec (now : Tick) (cs : List Command) (ts : List TagEntry)
    (h : (ts.map TagEntry.tag).Nodup) :
    (dispatchAll now cs ts).1.Sublist cs ∧ ((dispatchAll now cs ts).2.1.map TagEntry.tag).Nodup ∧
    ((dispatchAll now cs ts).1 ++ activeCommands (dispatchAll now cs ts).2.1).Perm
      (cs ++ activeCommands ts) := by
  induction cs generalizing ts with
  | nil => exact ⟨List.Sublist.refl _, h, List.Perm.refl _⟩
  | cons c cs ih =>
    cases hk : lowestFree ts with
    | none =>
      have e : dispatchAll now (c :: cs) ts = (c :: cs, ts, []) := by simp only [dispatchAll, hk]
      rw [e]
      exact ⟨List.Sublist.refl _, h, List.Perm.refl _⟩
    | some k =>
      have e : dispatchAll now (c :: cs) ts =
          ((dispatchAll now cs (ts ++ [⟨k, .active c now⟩])).1,
           (dispatchAll now cs (ts ++ [⟨k, .active c now⟩])).2.1,
           .command k c.kind c.lba c.count :: (dispatchAll now cs (ts ++ [⟨k, .active c now⟩])).2.2) := by
        simp only [dispatchAll, hk]
      rw [e]
      obtain ⟨a, b, p⟩ := ih (ts ++ [⟨k, .active c now⟩]) (tags_append_nodup h (lowestFree_free hk))
      refine ⟨a.trans (List.sublist_cons_self _ _), b, p.trans ?_⟩
      rw [activeCommands_append]
      show (cs ++ (activeCommands ts ++ [c])).Perm (c :: (cs ++ activeCommands ts))
      rw [← List.append_assoc]
      exact List.perm_append_singleton c _

/-- `lowestFree` is the first of the FREE tags. -/
theorem lowestFree_eq (ts : List TagEntry) : lowestFree ts = (freeTags ts).head? := by
  rw [lowestFree, freeTags, List.head?_filter, allTags]
  congr 1
  funext k
  rw [Bool.eq_iff_iff]
  simp only [List.all_eq_true, decide_eq_true_eq, List.mem_map, not_exists, not_and]

/-- A tag that leaves the FREE ones at the front leaves the rest. -/
theorem freeTags_append {ts : List TagEntry} {k : DriveTag} {rest : List DriveTag} {r : Role}
    (h : freeTags ts = k :: rest) : freeTags (ts ++ [⟨k, r⟩]) = rest := by
  have hk : freeTags (ts ++ [⟨k, r⟩]) = (freeTags ts).filter (fun j => decide (j ≠ k)) := by
    rw [freeTags, freeTags, List.filter_filter]
    congr 1
    funext j
    rw [Bool.eq_iff_iff]
    simp [and_comm]
  have hn : (freeTags ts).Nodup := (List.nodup_finRange 32).filter _
  rw [h, List.nodup_cons] at hn
  rw [hk, h, List.filter_cons_of_neg (by simp), List.filter_eq_self]
  intro j hj
  simp only [decide_eq_true_eq]
  rintro rfl
  exact hn.1 hj

/-- R55, R56: `dispatchAll` pairs the waiting commands in list order with the FREE tags in ascending order,
until either runs out. -/
theorem dispatchAll_eq (now : Tick) (cs : List Command) (ts : List TagEntry) :
    dispatchAll now cs ts =
      (cs.drop (freeTags ts).length,
       ts ++ (cs.zip (freeTags ts)).map (fun x => ⟨x.2, .active x.1 now⟩),
       (cs.zip (freeTags ts)).map (fun x => .command x.2 x.1.kind x.1.lba x.1.count)) := by
  induction cs generalizing ts with
  | nil => simp [dispatchAll]
  | cons c cs ih =>
    cases hf : freeTags ts with
    | nil => simp [dispatchAll, lowestFree_eq, hf]
    | cons k rest =>
      simp [dispatchAll, lowestFree_eq, hf, ih, freeTags_append hf]

theorem Engine.dispatch_ok {e : Engine} (now : Tick) (h : e.Ok) :
    ({ e with waiting := (dispatchAll now e.waiting e.tags).1,
              tags := (dispatchAll now e.waiting e.tags).2.1 } : Engine).Ok := by
  obtain ⟨a, b, p⟩ := dispatchAll_spec now e.waiting e.tags h.2.1
  refine h.mono a.length_le b ?_
  simp only [Engine.outstandingTags, ← List.map_append]
  exact (p.map _).subperm

theorem Engine.probe_ok {e : Engine} {k : DriveTag} (h : e.Ok) (hk : lowestFree e.tags = some k) :
    ({ e with probeRequest := false, tags := e.tags ++ [⟨k, .probe true⟩] } : Engine).Ok := by
  refine h.mono le_rfl (tags_append_nodup h.2.1 (lowestFree_free hk)) ?_
  simp only [Engine.outstandingTags, activeCommands_append]
  simpa [activeCommands] using List.Subperm.refl _

theorem Keeps.serveProbe (s : State) (i : Slot) : Keeps s (s.serveProbe i) := by
  unfold State.serveProbe
  dsimp only
  split
  · split
    · rename_i k hk
      exact ((Keeps.setEngine fun h => Engine.probe_ok h hk).trans (.toDrive _ _ _)).trans (.setSweep _ _)
    · exact .refl s
  · exact .refl s

theorem Keeps.serveWaiting (s : State) (i : Slot) : Keeps s (s.serveWaiting i) := by
  unfold State.serveWaiting
  dsimp only
  split
  · exact (Keeps.setEngine fun h => Engine.dispatch_ok _ h).trans (.toDrive _ _ _)
  · exact .refl s

theorem Keeps.arbiter (s : State) (i : Slot) : Keeps s (s.arbiter i) :=
  (Keeps.serveProbe s i).trans (.serveWaiting _ i)

/-! ### Ends, withdrawals and the fence (R64 to R67) -/

theorem Keeps.sendCpls (s : State) (i : Slot) (st : CplStatus) (cs : List Command) :
    Keeps s (s.sendCpls i st cs) := by
  unfold State.sendCpls
  exact Keeps.foldl (fun s c => Keeps.sendCpl s c.node i c.tag st 0) cs s

theorem Engine.withdraw_ok {e : Engine} (h : e.Ok) : ({ e with waiting := [] } : Engine).Ok :=
  h.sublist (List.nil_sublist _) (List.Sublist.refl _)

theorem Engine.noTags_ok {e : Engine} (h : e.Ok) : ({ e with tags := [] } : Engine).Ok :=
  h.sublist (List.Sublist.refl _) (List.nil_sublist _)

theorem Engine.filter_ok {e : Engine} (p : TagEntry → Bool) (h : e.Ok) :
    ({ e with tags := e.tags.filter p } : Engine).Ok :=
  h.sublist (List.Sublist.refl _) List.filter_sublist

theorem Engine.free_ok {e : Engine} (k : DriveTag) (h : e.Ok) : (e.free k).Ok := Engine.filter_ok _ h

theorem activeCommands_orphan_sublist (x : Node) (ts : List TagEntry) :
    (activeCommands (ts.map (TagEntry.orphan x))).Sublist (activeCommands ts) := by
  induction ts with
  | nil => exact List.Sublist.refl _
  | cons t ts ih =>
    obtain ⟨k, role⟩ := t
    cases role with
    | active c d =>
      by_cases h : c.node = x
      · simpa [activeCommands, TagEntry.orphan, h] using ih.trans (List.sublist_cons_self _ _)
      · simpa [activeCommands, TagEntry.orphan, h] using ih
    | orphaned c d => simpa [activeCommands, TagEntry.orphan] using ih
    | probe b => simpa [activeCommands, TagEntry.orphan] using ih

theorem orphan_tag (x : Node) (t : TagEntry) : (t.orphan x).tag = t.tag := by
  unfold TagEntry.orphan
  split
  · split <;> rfl
  · rfl

theorem Engine.fence_ok {e : Engine} (x : Node) (h : e.Ok) : (e.fence x).Ok := by
  refine h.mono (List.length_filter_le _ _) ?_ ?_
  · have : (e.fence x).tags.map TagEntry.tag = e.tags.map TagEntry.tag := by
      simp [Engine.fence, Function.comp_def, orphan_tag]
    rw [this]; exact h.2.1
  · exact ((List.filter_sublist.map _).append ((activeCommands_orphan_sublist x e.tags).map _)).subperm

theorem Keeps.withdraw (s : State) (i : Slot) (st : CplStatus) : Keeps s (s.withdraw i st) :=
  (Keeps.setEngine fun h => Engine.withdraw_ok h).trans (.sendCpls _ i st _)

theorem Keeps.endTagsByReset (s : State) (i : Slot) (c : ResetCause) : Keeps s (s.endTagsByReset i c) :=
  ((Keeps.setEngine fun h => Engine.noTags_ok h).trans (.setReport _ _ _)).trans (.sendCpls _ i _ _)

theorem Keeps.endTagsByRemoval (s : State) (i : Slot) : Keeps s (s.endTagsByRemoval i) :=
  ((Keeps.setEngine fun h => Engine.noTags_ok h).trans (.setReport _ _ _)).trans (.sendCpls _ i _ _)

theorem Keeps.fillReport (s : State) (i : Slot) (tag : Byte) (f : Fate) : Keeps s (s.fillReport i tag f) := by
  unfold State.fillReport
  split
  · exact .setReport _ _ _
  · exact .refl s

/-- An engine with other counters or another probe request is in order as before. -/
theorem Engine.Ok.same {e e' : Engine} (h : e.Ok) (hw : e'.waiting = e.waiting) (ht : e'.tags = e.tags) :
    e'.Ok := h.sublist (hw ▸ List.Sublist.refl _) (ht ▸ List.Sublist.refl _)

end Sys2Proof.Machine
end

