-- ==== Sys2Proof/Laws/Commit.lean ====
section
/-! SUPPORT. What the commit step, the batches and the automatic claims keep. -/

namespace Sys2Proof.Machine

/-! ### Slot records -/

theorem SlotRec.begin_ok (r : SlotRec) (o : Owner) (p : CommitPath) : (r.begin o p).Ok := by
  simp [SlotRec.Ok, SlotRec.begin, SlotRec.enter]

theorem SlotRec.rest_ok (r : SlotRec) : r.rest.Ok := by
  unfold SlotRec.rest SlotRec.enter
  cases r.owner <;> simp [SlotRec.Ok]

theorem SlotRec.claimed_ok (r : SlotRec) (n : Node) : (r.enter .claimed none none (some n) none).Ok := by
  simp [SlotRec.Ok, SlotRec.enter]

theorem SlotRec.draining_ok (r : SlotRec) (n : Node) (d : Tick) :
    (r.enter .draining none none (some n) (some d)).Ok := by
  simp [SlotRec.Ok, SlotRec.enter]

theorem SlotRec.handing_ok (r : SlotRec) (o : Owner) (d : Tick) :
    (r.enter .handing (some o) none none (some d)).Ok := by
  simp [SlotRec.Ok, SlotRec.enter]

theorem SlotRec.returned_ok (r : SlotRec) (p : PriorPhase) : (r.enter p.phase none none none none).Ok := by
  cases p <;> simp [SlotRec.Ok, SlotRec.enter, PriorPhase.phase]

/-! ### The update queue (R159, R160) -/

theorem enqueue_of_absent {u : Update} {q : List Update} (h : ∀ w ∈ q, w.slot ≠ u.slot) :
    enqueue u q = q ++ [u] := by
  induction q with
  | nil => rfl
  | cons v vs ih =>
    rw [enqueue, if_neg (h v (by simp)), ih (fun w hw => h w (by simp [hw])), List.cons_append]

theorem enqueue_of_waiting {u w : Update} {before rest : List Update} (h : ∀ v ∈ before, v.slot ≠ u.slot)
    (hw : w.slot = u.slot) :
    enqueue u (before ++ w :: rest) =
      before ++ { u with commitWaits := u.commitWaits || w.commitWaits } :: rest := by
  induction before with
  | nil => simp [enqueue, hw]
  | cons v vs ih =>
    rw [List.cons_append, enqueue, if_neg (h v (by simp)), ih (fun x hx => h x (by simp [hx])),
      List.cons_append]

/-- What `queueUpdate` does to a store that takes the update. -/
theorem State.queueUpdate_of_accepts {s : State} {i : Slot} {b : Bool} {st : Store}
    (h : s.store.Accepts { slot := i, owner := (s.slot i).owner, generation := (s.slot i).generation
                           fingerprint := (s.bay i).recorded, commitWaits := b } s.now st) :
    s.queueUpdate i b = s.setStore st := by
  rcases h with ⟨hm, hq, rfl⟩ | ⟨⟨v, k, d, hm⟩, hw⟩
  · simp [State.queueUpdate, hm, hq, enqueue, Store.kick]
  · rcases hw with ⟨ha, rfl⟩ | ⟨before, w, rest, hq, ha, hs, rfl⟩
    · simp [State.queueUpdate, hm, Store.kick, enqueue_of_absent ha]
    · simp [State.queueUpdate, hm, hq, Store.kick, enqueue_of_waiting ha hs]

/-! ### The pieces of a takeover -/

theorem Keeps.setMember (s : State) (n : Node) (i : Slot) (f : Member → Member) :
    Keeps s (s.setMember n i f) := .setBatch _ _ _

theorem Keeps.closeReport (s : State) (i : Slot) (g : Gen) (b : Bool) : Keeps s (s.closeReport i g b) :=
  .setReport _ _ _

theorem Keeps.beginCommit (s : State) (i : Slot) (o : Owner) (p : CommitPath) :
    Keeps s (s.beginCommit i o p) :=
  (Keeps.clearWindows s i).trans (Keeps.setSlot (s := s.clearWindows i)
    (fun _ => SlotRec.begin_ok _ o p) (fun h => h)
    (fun _ _ _ hk he => absurd he (clearWindows_active hk).2))

theorem Keeps.startCommitWith {fin : Slot → Bool → State → State}
    (hf : ∀ i b s, Keeps s (fin i b s)) (i : Slot) (o : Owner) (p : CommitPath) (s : State) :
    Keeps s (startCommitWith fin i o p s) := by
  unfold Machine.startCommitWith
  exact (Keeps.beginCommit s i o p).trans (.ite (fun _ => hf i false _) (fun _ => .queueUpdate _ i true))

theorem Keeps.returnSlot (s : State) (n : Node) (i : Slot) (p : PriorPhase) :
    Keeps s (s.returnSlot n i p) := by
  unfold State.returnSlot
  exact .ite (fun _ => .setSlot (fun _ => SlotRec.returned_ok _ p) (fun h => h)) (fun _ => .refl s)

theorem Keeps.join (s : State) (n : Node) (i : Slot) : Keeps s (s.join n i) :=
  (Keeps.setSlot (fun _ => SlotRec.claimed_ok _ n) (fun h => h)).trans (.setBatch _ _ _)

theorem Keeps.joins (s : State) (n : Node) (is : List Slot) :
    Keeps s (is.foldl (fun s i => s.join n i) s) := .foldl (fun s i => .join s n i) is s

theorem Keeps.createBatch (s : State) (n : Node) (o : Origin) : Keeps s (s.createBatch n o) := .setBatch _ _ _

theorem Keeps.setAutoPending (s : State) (i : Slot) (m : Option Node) : Keeps s (s.setAutoPending i m) :=
  .setSlot (fun h => h) (fun h => h)

theorem Keeps.closeBatch (s : State) (n : Node) (o : BatchOutcome) : Keeps s (s.closeBatch n o) :=
  (Keeps.setBatch _ _ _).trans (.raise _ _ _ _)

theorem Keeps.fenceOwner (s : State) (i : Slot) (x n : Node) : Keeps s (s.fenceOwner i x n) := by
  unfold State.fenceOwner
  dsimp only
  refine ((Keeps.setReport s i _).trans (Keeps.setLease ?_)).trans (Keeps.setEngine ?_)
  · exact fun h => h
  · exact fun h => Engine.fence_ok x h

theorem Keeps.drain (s : State) (n : Node) (i : Slot) (k : Nat) : Keeps s (s.drain n i k) :=
  (Keeps.setSlot (fun _ => SlotRec.draining_ok _ n _) (fun h => h)).trans (.setMember _ _ _ _)

theorem Keeps.runMember {fin : Slot → Bool → State → State} (hf : ∀ i b s, Keeps s (fin i b s)) (n : Node)
    (m : Member) (s : State) : Keeps s (runMember fin n m s) := by
  have commit : ∀ s, Keeps s (Machine.startCommitWith fin m.slot (some n) .takeover
      (s.setMember n m.slot (fun k => { k with status := .committing }))) := fun s =>
    (Keeps.setMember s _ _ _).trans (.startCommitWith hf _ _ _ _)
  unfold Machine.runMember
  dsimp only
  split
  · exact (Keeps.setMember _ _ _ _).trans (.returnSlot _ _ _ _)
  · split
    · exact commit s
    · apply Keeps.trans (Keeps.fenceOwner s m.slot (m.oldOwner.getD n.partner) n)
      split
      · exact commit _
      · exact .drain _ _ _ _

theorem Keeps.runMembers {fin : Slot → Bool → State → State} (hf : ∀ i b s, Keeps s (fin i b s)) (n : Node)
    (s : State) : Keeps s (runMembers fin n s) :=
  (Keeps.setBatch s n _).trans (.foldl (fun s m => .runMember hf n m s) _ _)

theorem Keeps.gatherWith {run : Node → State → State} (hr : ∀ n s, Keeps s (run n s)) (n : Node)
    (s : State) : Keeps s (gatherWith run n s) := by
  unfold Machine.gatherWith
  exact (Keeps.setBatch s n _).trans (.ite (fun _ => hr n _) (fun _ => .refl _))

theorem Keeps.deferredWith {run : Node → State → State} (hr : ∀ n s, Keeps s (run n s)) (n : Node)
    (s : State) : Keeps s (deferredWith run n s) := by
  unfold Machine.deferredWith
  dsimp only
  refine (Keeps.foldl (fun s i => .setAutoPending s i none) _ s).trans (.ite (fun _ => .refl _) fun _ => ?_)
  exact ((Keeps.createBatch _ n .auto).trans (.joins _ n _)).trans (.gatherWith hr n _)

theorem Keeps.endBatchWith {run : Node → State → State} (hr : ∀ n s, Keeps s (run n s)) (n : Node)
    (o : BatchOutcome) (s : State) : Keeps s (endBatchWith run n o s) :=
  (Keeps.closeBatch s n o).trans (.deferredWith hr n _)

theorem Keeps.checkBatchWith {run : Node → State → State} (hr : ∀ n s, Keeps s (run n s)) (n : Node)
    (s : State) : Keeps s (checkBatchWith run n s) :=
  .ite (fun _ => .endBatchWith hr n _ s) (fun _ => .refl s)

theorem Keeps.claimForWith {run : Node → State → State} (hr : ∀ n s, Keeps s (run n s)) (y : Node)
    (is : List Slot) (s : State) : Keeps s (claimForWith run y is s) := by
  unfold Machine.claimForWith
  refine .ite (fun _ => .refl s) fun _ => ?_
  split
  · exact .foldl (fun s i => .setAutoPending s i (some y)) _ s
  · exact (Keeps.joins s y is).trans (.gatherWith hr y _)
  · exact ((Keeps.createBatch s y .auto).trans (.joins _ y is)).trans (.gatherWith hr y _)

/-! ### Completing a commit -/

theorem Keeps.claimReply (s : State) (n : Node) (i : Slot) (b : Bool) : Keeps s (s.claimReply n i b) := by
  unfold State.claimReply
  split
  · refine (Keeps.setPort fun h hd => ?_).trans (.reply _ _ _ _ _ _)
    exact ⟨by simp [(h hd).1], (h hd).2⟩
  · exact .refl s

theorem Keeps.memberDone (s : State) (n : Node) (i : Slot) (b : Bool) : Keeps s (s.memberDone n i b) := by
  unfold State.memberDone
  dsimp only
  split
  · exact .refl s
  · split
    · exact (((Keeps.setMember s n i _).trans (.closeReport _ _ _ _)).trans (.raise _ _ _ _)).trans
        (.raise _ _ _ _)
    · exact (Keeps.setMember s n i _).trans (.raise _ _ _ _)

theorem Keeps.commitResults (s : State) (i : Slot) (r : SlotRec) (b : Bool) :
    Keeps s (s.commitResults i r b) := by
  unfold State.commitResults
  split
  · exact (Keeps.claimReply _ _ _ _).trans (.raise _ _ _ _)
  · exact .raiseBoth _ _ _
  · exact .raiseBoth _ _ _
  · exact .memberDone _ _ _ _
  · exact .refl s

theorem Keeps.commitCheckWith {run : Node → State → State} (hr : ∀ n s, Keeps s (run n s)) (i : Slot)
    (s : State) : Keeps s (commitCheckWith run i s) := by
  unfold Machine.commitCheckWith
  dsimp only
  split
  · exact .ite (fun _ => .claimForWith hr _ _ s) (fun _ => .refl s)
  · exact .refl s

theorem Keeps.afterResultsWith {run : Node → State → State} (hr : ∀ n s, Keeps s (run n s)) (r : SlotRec)
    (s : State) : Keeps s (afterResultsWith run r s) := by
  unfold Machine.afterResultsWith
  split
  · exact .checkBatchWith hr _ s
  · exact .refl s

theorem Keeps.finishWith {run : Node → State → State} (hr : ∀ n s, Keeps s (run n s)) (i : Slot) (b : Bool)
    (s : State) : Keeps s (finishWith run i b s) := by
  unfold Machine.finishWith
  refine .ite (fun _ => ?_) (fun _ => .refl s)
  exact (((Keeps.setSlot (fun _ => SlotRec.rest_ok _) (fun h => h)).trans (.commitResults _ i _ b)).trans
    (.afterResultsWith hr _ _)).trans (.commitCheckWith hr i _)

theorem Keeps.runLevel (k : Nat) (n : Node) (s : State) : Keeps s (runLevel k n s) := by
  induction k generalizing n s with
  | zero => exact .refl s
  | succ k ih => exact (Keeps.runMembers (fun i b s => .finishWith ih i b s) n s).trans (.checkBatchWith ih n _)

/-! ### The operations events use -/

theorem Keeps.runBatch (n : Node) (s : State) : Keeps s (runBatch n s) := .runLevel 4 n s

theorem Keeps.commitDone (i : Slot) (b : Bool) (s : State) : Keeps s (commitDone i b s) :=
  .finishWith Keeps.runBatch i b s

theorem Keeps.startCommit (i : Slot) (o : Owner) (p : CommitPath) (s : State) :
    Keeps s (startCommit i o p s) := .startCommitWith Keeps.commitDone i o p s

theorem Keeps.gather (n : Node) (s : State) : Keeps s (gather n s) := .gatherWith Keeps.runBatch n s

theorem Keeps.endBatch (n : Node) (o : BatchOutcome) (s : State) : Keeps s (endBatch n o s) :=
  .endBatchWith Keeps.runBatch n o s

theorem Keeps.trigger (x : Node) (s : State) : Keeps s (trigger x s) :=
  .ite (fun _ => .claimForWith Keeps.runBatch _ _ s) (fun _ => .refl s)

theorem Keeps.handingCheck (i : Slot) (s : State) : Keeps s (handingCheck i s) := by
  unfold Machine.handingCheck
  dsimp only
  split
  · exact .ite (fun _ => .startCommit _ _ _ s) (fun _ => .refl s)
  · exact .refl s

theorem Keeps.drainCheck (i : Slot) (s : State) : Keeps s (drainCheck i s) := by
  unfold Machine.drainCheck
  dsimp only
  split
  · exact .ite (fun _ => (Keeps.setMember s _ _ _).trans (.startCommit _ _ _ _)) (fun _ => .refl s)
  · exact .refl s

end Sys2Proof.Machine
end

