-- ==== Sys2Proof/Laws/Sweep.lean ====
section
/-! SUPPORT. What the audit walk keeps. -/

namespace Sys2Proof.Machine

theorem NoticeQueue.place_ok {b : Bool} {q : NoticeQueue} (m : Notice) (hp : q.hasPlace = true)
    (_h : q.Ok b) : ({ q with queue := q.queue ++ [m], attention := true } : NoticeQueue).Ok b := by
  simp only [NoticeQueue.hasPlace, Bool.and_eq_true, decide_eq_true_eq] at hp
  refine ⟨?_, ?_, ?_⟩
  · simp; omega
  · simp [hp.1]
  · simp [hp.1]

theorem Keeps.placeResult {s : State} {w : SweepRun} {r : AuditResult}
    (hp : (s.notice w.requester).hasPlace = true) : Keeps s (s.placeResult w r) :=
  (Keeps.setNotice fun h => NoticeQueue.place_ok _ hp h).trans (.setSweep _ _)

theorem Keeps.markResult (s : State) (n : Node) (r : AuditResult) : Keeps s (s.markResult n r) :=
  .setNotice fun h => h

/-- A produced result: its place is taken only where there is one (R137). -/
theorem Keeps.produce (s : State) (w : SweepRun) (r : AuditResult) : Keeps s (s.produce w r).1 := by
  have h0 : Keeps s ((s.tableResult r).markResult w.requester r) :=
    (Keeps.setSweep s _).trans (.markResult _ _ _)
  unfold State.produce
  dsimp only
  split
  · exact h0.trans (.placeResult ‹_›)
  · exact h0.trans (.setSweep _ _)

theorem Keeps.releaseProbe (s : State) : Keeps s s.releaseProbe := by
  unfold State.releaseProbe
  split
  · exact .setEngine fun h => h.same rfl rfl
  · refine .setEngine fun h => h.mono le_rfl ?_ ?_
    · have e : ∀ k : DriveTag, TagEntry.tag ∘ (fun t : TagEntry =>
          if t.tag = k ∧ t.isProbe = true then { t with role := .probe false } else t) = TagEntry.tag := by
        intro k; funext t; simp only [Function.comp]; split <;> rfl
      simpa [e] using h.2.1
    · refine ((List.Sublist.refl _).append ?_).subperm
      refine List.Sublist.map _ ?_
      generalize (s.engine _).tags = ts
      induction ts with
      | nil => exact List.Sublist.refl _
      | cons t ts ih =>
        obtain ⟨k, role⟩ := t
        cases role with
        | active c d => simpa [activeCommands, TagEntry.isProbe] using ih
        | orphaned c d => simpa [activeCommands, TagEntry.isProbe] using ih
        | probe b =>
          simp only [List.map_cons]
          split <;> simpa [activeCommands] using ih
  · exact .refl s

theorem Keeps.endSweep (r : EndReason) (s : State) : Keeps s (endSweep r s) := by
  unfold Machine.endSweep
  split
  · exact ((Keeps.releaseProbe s).trans (.setSweep _ _)).trans (.raise _ _ _ _)
  · exact .refl s

theorem Keeps.endSweepOf (n : Node) (r : EndReason) (s : State) : Keeps s (endSweepOf n r s) :=
  .ite (fun _ => .endSweep r s) (fun _ => .refl s)

theorem Keeps.requestProbe (s : State) (i : Slot) : Keeps s (s.requestProbe i) := by
  unfold State.requestProbe
  refine ((Keeps.setEngine ?_).trans (.setSweep _ _)).trans (.arbiter _ i)
  exact fun h => h.same rfl rfl

theorem Keeps.walkOn (k : Nat) (cur : Slot) (s : State) : Keeps s (walkOn k cur s) := by
  induction k generalizing cur s with
  | zero => exact .refl s
  | succ k ih =>
    unfold Machine.walkOn
    split
    · exact .refl s
    · split
      · exact .endSweep _ s
      · exact .setSweep _ _
      · dsimp only
        split
        · exact (Keeps.setSweep s _).trans (.requestProbe _ _)
        · split
          · exact ((Keeps.setSweep s _).trans (.produce _ _ _)).trans (ih _ _)
          · exact (Keeps.setSweep s _).trans (.produce _ _ _)

theorem Keeps.settle (cur : Slot) (r : AuditResult) (s : State) : Keeps s (settle cur r s) := by
  unfold Machine.settle
  split
  · exact .refl s
  · dsimp only
    split
    · exact (Keeps.produce s _ r).trans (.walkOn 33 cur _)
    · exact .produce s _ r

theorem Keeps.handleSlot (i : Slot) (s : State) : Keeps s (handleSlot i s) := by
  unfold Machine.handleSlot
  dsimp only
  split
  · exact (Keeps.setSweep s _).trans (.requestProbe _ i)
  · exact (Keeps.setSweep s _).trans (.settle i _ _)

theorem Keeps.settleProbe (i : Slot) (o : AuditOutcome) (fp : Option Fingerprint)
    (st : Option (BitVec 16)) (s : State) : Keeps s (settleProbe i o fp st s) :=
  (Keeps.setSweep s _).trans (.settle i _ _)

end Sys2Proof.Machine
end

