-- ==== Sys2Proof/Laws/Bays.lean ====
section
/-! SUPPORT. What the Bay Controllers' shared operations keep. -/

namespace Sys2Proof.Machine

theorem Bay.resettable_iff (s : State) (i : Slot) :
    s.resettable i = true ↔ (s.bay i).state = .ready ∨ (s.bay i).state = .suspect := by
  simp [State.resettable]

theorem Bay.bringUp_ok {b : Bay} (now : Tick) (h : b.Ok)
    (hs : b.state = .held ∨ b.state = .failed) : (b.bringUp now).Ok := by
  obtain ⟨h1, h2, h3, h4, h5, h6, h7⟩ := h
  rcases hs with hs | hs <;> simp_all [Bay.Ok, Bay.bringUp]

theorem Bay.fail_ok {b : Bay} (h : b.Ok) (hs : b.state = .bringup ∨ b.state = .resetting) : b.fail.Ok := by
  obtain ⟨h1, h2, h3, h4, h5, h6, h7⟩ := h
  rcases hs with hs | hs <;> simp_all [Bay.Ok, Bay.fail]

theorem Keeps.beginReset (s : State) (i : Slot) (c : ResetCause) (hr : s.resettable i = true) :
    Keeps s (s.beginReset i c) := by
  unfold State.beginReset
  dsimp only
  refine (((Keeps.setBay ?_).trans (Keeps.setEngine ?_)).trans (.endTagsByReset _ i c)).trans (.toDrive _ i _)
  · intro h
    obtain ⟨h1, h2, h3, h4, h5, h6, h7⟩ := h
    rcases (Bay.resettable_iff s i).1 hr with hs | hs <;> simp_all [Bay.Ok, Bay.forget]
  · exact fun h => h.same rfl rfl

theorem Keeps.linkReset (i : Slot) (c : ResetCause) (s : State) : Keeps s (linkReset i c s) := by
  unfold Machine.linkReset
  dsimp only
  split
  · rename_i hr
    split
    · exact ((Keeps.beginReset s i c hr).trans (.handingCheck i _)).trans (.settleProbe i _ _ _ _)
    · exact (Keeps.beginReset s i c hr).trans (.handingCheck i _)
  · exact .refl s

/-- A bay that becomes SUSPECT or READY with its deadlines gone. -/
theorem Bay.trained_ok {b : Bay} (h6 : b.present = true) (st : BayState)
    (hst : st = .ready ∨ st = .suspect) (hd : b.bringupDeadline = none) (hr : b.resetDeadline = none)
    (hc : b.resetCause = none) (ha : b.awaits = .nothing) (rec : Option Fingerprint)
    (p : Option Fingerprint) (hp : p.isSome ↔ st = .suspect) (cap : Lba) :
    ({ b with state := st, recorded := rec, presented := p, capacity := some cap } : Bay).Ok := by
  rcases hst with rfl | rfl <;> simp_all [Bay.Ok]

/-- The bay is ready to be judged: its bring-up or reset is over. -/
def Bay.Settled (b : Bay) : Prop :=
  b.present = true ∧ b.bringupDeadline = none ∧ b.resetDeadline = none ∧ b.resetCause = none ∧
    b.awaits = .nothing

theorem Bay.Ok.settled {b : Bay} (h : b.Ok) (hs : b.state = .ready ∨ b.state = .suspect) : b.Settled := by
  obtain ⟨h1, h2, h3, h4, h5, h6, h7⟩ := h
  refine ⟨h6.2 ?_, ?_, ?_, ?_, ?_⟩
  · rcases hs with hs | hs <;> simp [hs]
  · rcases hs with hs | hs <;> simpa [hs] using h3
  · rcases hs with hs | hs <;> simpa [hs] using h4
  · rcases hs with hs | hs <;> simpa [hs] using h5
  · rcases hs with hs | hs <;> simpa [hs] using h7

theorem Keeps.becomeReady {s : State} {i : Slot} (h : (s.bay i).Ok → (s.bay i).Settled) (fp : Fingerprint)
    (cap : Lba) : Keeps s (s.becomeReady i fp cap) := by
  refine .setBay fun hb => ?_
  obtain ⟨a, b, c, d, e⟩ := h hb
  exact Bay.trained_ok a .ready (.inl rfl) b c d e _ none (by simp) cap

theorem Keeps.becomeSuspect {s : State} {i : Slot} (h : (s.bay i).Ok → (s.bay i).Settled)
    (fp : Fingerprint) (cap : Lba) : Keeps s (s.becomeSuspect i fp cap) := by
  unfold State.becomeSuspect
  refine ((Keeps.setBay ?_).trans (.withdraw _ _ _)).trans (.raiseBoth _ _ _)
  intro hb
  obtain ⟨a, b, c, d, e⟩ := h hb
  exact Bay.trained_ok a .suspect (.inr rfl) b c d e _ (some fp) (by simp) cap

theorem Keeps.compareIdentity {s : State} {i : Slot} (h : (s.bay i).Ok → (s.bay i).Settled)
    (fp : Fingerprint) (cap : Lba) : Keeps s (s.compareIdentity i fp cap) := by
  unfold State.compareIdentity
  split
  · split
    · exact (Keeps.becomeReady h fp cap).trans (.queueUpdate _ i false)
    · exact .becomeReady h fp cap
  · split
    · exact .becomeReady h fp cap
    · split
      · exact .becomeSuspect h fp cap
      · exact .becomeReady h fp cap

theorem Keeps.rearmHanding (s : State) (i : Slot) : Keeps s (s.rearmHanding i) := by
  unfold State.rearmHanding
  dsimp only
  split
  · rename_i hp _ _
    refine .ite (fun _ => .setSlot ?_ (fun h => h)) (fun _ => .refl s)
    intro h
    obtain ⟨h1, h2, h3, h4, h5, h6⟩ := h
    exact ⟨h1, h2, h3, fun _ => .inr hp, by simp, h6⟩
  · exact .refl s

theorem Keeps.taggedIdentity (s : State) (i : Slot) (fp : Fingerprint) (cap : Lba) :
    Keeps s (s.taggedIdentity i fp cap) := by
  unfold State.taggedIdentity
  dsimp only
  split
  · exact .refl s
  · rename_i hr
    have hst := (Bay.resettable_iff s i).1 (by simpa using hr)
    have hset : (s.bay i).Ok → (s.bay i).Settled := fun h => h.settled hst
    split
    · split
      · rename_i hsus
        refine .setBay fun h => ?_
        obtain ⟨h1, h2, h3, h4, h5, h6, h7⟩ := h
        simp_all [Bay.Ok]
      · exact .refl s
    · split
      · split
        · rename_i hsus
          refine .setBay fun h => ?_
          obtain ⟨h1, h2, h3, h4, h5, h6, h7⟩ := h
          simp_all [Bay.Ok]
        · exact .becomeSuspect hset fp cap
      · exact .becomeReady hset fp cap

theorem Keeps.answerProbe (i : Slot) (st : BitVec 16) (fp : Fingerprint) (cap : Lba) (s : State) :
    Keeps s (answerProbe i st fp cap s) := by
  unfold Machine.answerProbe
  dsimp only
  split
  · exact ((Keeps.taggedIdentity s i fp cap).trans (.handingCheck i _)).trans (.settleProbe i _ _ _ _)
  · exact .settleProbe i _ _ _ s

theorem Keeps.completeProbe (i : Slot) (k : DriveTag) (e : Bool) (st : BitVec 16) (fp : Fingerprint)
    (cap : Lba) (s : State) : Keeps s (completeProbe i k e st fp cap s) := by
  unfold Machine.completeProbe
  dsimp only
  have h0 : Keeps s (s.setEngine i ((s.engine i).free k)) := .setEngine fun h => Engine.free_ok k h
  split
  · exact (h0.trans (.answerProbe i st fp cap _)).trans (.arbiter _ i)
  · exact h0.trans (.arbiter _ i)

theorem Keeps.completeActive (i : Slot) (k : DriveTag) (c : Command) (st : BitVec 16) (s : State) :
    Keeps s (completeActive i k c st s) := by
  unfold Machine.completeActive
  dsimp only
  refine (((Keeps.sendCpl s c.node i c.tag _ st).trans (Keeps.setEngine ?_)).trans
    (.handingCheck i _)).trans (.arbiter _ i)
  exact fun h => Engine.free_ok k h

theorem Keeps.completeOrphan (i : Slot) (k : DriveTag) (c : Command) (st : BitVec 16) (s : State) :
    Keeps s (completeOrphan i k c st s) := by
  unfold Machine.completeOrphan
  dsimp only
  refine (((Keeps.fillReport s i c.tag _).trans (Keeps.setEngine ?_)).trans
    (.drainCheck i _)).trans (.arbiter _ i)
  exact fun h => Engine.free_ok k h

/-- A good untagged answer: the bay's deadlines go, and it becomes READY or SUSPECT (R117, R121). -/
theorem Keeps.identityTaken (s : State) (i : Slot) (fp : Fingerprint) (cap : Lba)
    (hw : (s.bay i).awaits = .identity) : Keeps s (s.identityTaken i fp cap) := by
  have hp : (s.bay i).Ok → (s.bay i).present = true := fun h => by
    obtain ⟨-, -, -, -, -, h6, h7⟩ := h
    exact h6.2 (by rcases h7.1 (by simp [hw]) with h | h <;> simp [h])
  have ready : ∀ rec, Keeps s (s.setBay i { s.bay i with
      state := .ready, recorded := rec, presented := none, capacity := some cap
      bringupDeadline := none, resetDeadline := none, resetCause := none, awaits := .nothing }) :=
    fun rec => .setBay fun h => by simp [Bay.Ok, hp h]
  have suspect : Keeps s (s.setBay i { s.bay i with
      state := .suspect, presented := some fp, capacity := some cap
      bringupDeadline := none, resetDeadline := none, resetCause := none, awaits := .nothing }) :=
    .setBay fun h => by simp [Bay.Ok, hp h]
  have compared : Keeps s ((s.setBay i { s.bay i with
      bringupDeadline := none, resetDeadline := none, resetCause := none,
      awaits := .nothing }).compareIdentity i fp cap) := by
    unfold State.compareIdentity State.becomeReady State.becomeSuspect
    simp only [State.setBay_bay_same, State.setBay_setBay]
    split
    · split
      · exact (ready _).trans (.queueUpdate _ i false)
      · exact ready _
    · split
      · exact ready _
      · split
        · exact (suspect.trans (.withdraw _ _ _)).trans (.raiseBoth _ _ _)
        · exact ready _
  unfold State.identityTaken
  dsimp only
  split
  · exact compared.trans (.rearmHanding _ i)
  · exact compared

end Sys2Proof.Machine
end

