-- ==== Sys2Proof/Laws/Answers.lean ====
section
/-! SUPPORT. What the shared operations come to when their conditions are known: the gates of the
meanings, replies on an UP port, the arbiter of a bay with nothing or one command to serve, a commit in
a READY store, the CPLs of ended commands, and which operations leave the slot records alone. -/

namespace Sys2Proof.Machine

/-! ### The gates -/

theorem whenUp_takes {s : State} {n : Node} {f : State → State} (h : s.Takes n) : whenUp n f s = f s := by
  simp [whenUp, h.1, h.2]

theorem whenRunning_on {s : State} {f : State → State} (h : s.running = true) : whenRunning f s = f s := by
  simp [whenRunning, h]

theorem whenTrue_on {p : State → Bool} {s : State} {f : State → State} (h : p s = true) :
    whenTrue p f s = f s := by
  simp [whenTrue, h]

theorem whenTrue_off {p : State → Bool} {s : State} {f : State → State} (h : p s = false) :
    whenTrue p f s = s := by
  simp [whenTrue, h]

/-! ### Frames to a node -/

theorem reply_up {s : State} {n : Node} (h : (s.port n).state = .up) (id : BitVec 16) (c : Byte) (r : Result)
    (d : List Byte) : s.reply n id c r d = s.answered n id c r d := by
  unfold State.reply
  dsimp only
  rw [if_pos h]
  rfl

theorem cpl_up {s : State} {n : Node} (h : (s.port n).state = .up) (i : Slot) (tag : Byte) (st : CplStatus)
    (d : BitVec 16) : s.sendCpl n i tag st d = s.refused n i tag st d := by
  unfold State.sendCpl
  dsimp only
  rw [if_pos h]
  rfl

@[simp] theorem answered_port_state (s : State) (m n : Node) (id : BitVec 16) (c : Byte) (r : Result)
    (d : List Byte) : ((s.answered n id c r d).port m).state = (s.port m).state := by
  unfold State.answered State.port
  dsimp only
  rw [Pair.get_put]
  split <;> simp_all

/-- Ended commands change nothing but the ports, keep each port's state, and add their CPLs in list order
to what a port that is UP has to send. -/
theorem sendCpls_ports (i : Slot) (st : CplStatus) (cs : List Command) : ∀ s : State,
    { s.sendCpls i st cs with ports := s.ports } = s ∧
    ∀ n, ((s.sendCpls i st cs).port n).state = (s.port n).state ∧
      ((s.port n).state = .up → ((s.sendCpls i st cs).port n).unsent =
        (s.port n).unsent ++ cplsFor n i st (s.slot i).generation cs) := by
  induction cs with
  | nil => exact fun s => ⟨rfl, fun n => ⟨rfl, fun _ => by simp [State.sendCpls, cplsFor]⟩⟩
  | cons c cs ih =>
    intro s
    have h := ih (s.sendCpl c.node i c.tag st 0)
    have hf : s.sendCpls i st (c :: cs) = (s.sendCpl c.node i c.tag st 0).sendCpls i st cs := rfl
    have h1 : { s.sendCpl c.node i c.tag st 0 with ports := s.ports } = s := by
      unfold State.sendCpl; dsimp only; split <;> rfl
    have hsl : (s.sendCpl c.node i c.tag st 0).slot i = s.slot i := by
      unfold State.sendCpl; dsimp only; split <;> rfl
    rw [hf]
    refine ⟨?_, fun n => ?_⟩
    · have a := h.1
      generalize (s.sendCpl c.node i c.tag st 0).sendCpls i st cs = z at a ⊢
      generalize s.sendCpl c.node i c.tag st 0 = y at a h1
      rw [← a] at h1
      exact h1
    · have a := h.2 n
      have b : ((s.sendCpl c.node i c.tag st 0).port n).state = (s.port n).state ∧
          ((s.port n).state = .up → ((s.sendCpl c.node i c.tag st 0).port n).unsent =
            (s.port n).unsent ++
              (if c.node = n then [.cpl i c.tag st (s.slot i).generation 0] else [])) := by
        unfold State.sendCpl
        dsimp only
        by_cases hn : c.node = n
        · subst hn
          split
          · simp
          · rename_i hh
            exact ⟨by simp, fun h => absurd h hh⟩
        · have hn' : n ≠ c.node := fun h => hn h.symm
          split <;> simp [State.setPort_port, hn']
      refine ⟨a.1.trans b.1, fun hu => ?_⟩
      rw [a.2 (b.1.trans hu), b.2 hu, hsl]
      by_cases hn : c.node = n <;> simp [cplsFor, hn]

/-- What does not depend on the ports is the same in two states that differ in their ports alone. -/
theorem same_but_ports {α : Type} {s t : State} (h : { t with ports := s.ports } = s) (f : State → α)
    (hf : ∀ (u : State) (p : Pair Port), f { u with ports := p } = f u) : f t = f s :=
  (hf t s.ports).symm.trans (congrArg f h)

/-- One node is told: the notice joins its queue where that is on, unmasked and below 32. -/
theorem raise_queue (s : State) (i : Option Slot) (b : NoticeBody) (n : Node)
    (h1 : (s.notice n).on = true) (h2 : (s.notice n).mask = 0) (h3 : (s.notice n).queue.length < 32) :
    ((s.raise n i b).notice n).queue = (s.notice n).queue ++ [{ slot := i, tick := s.now, body := b }] := by
  have : (s.raise n i b).notice n = (s.notice n).push { slot := i, tick := s.now, body := b } := by
    cases n <;> rfl
  rw [this]
  unfold NoticeQueue.push
  dsimp only
  rw [if_neg (by simp [h1, h2]), if_pos h3]

/-- Both nodes are told: the notice joins each queue that is on, unmasked and below 32. -/
theorem raiseBoth_queue (s : State) (i : Option Slot) (b : NoticeBody) (n : Node)
    (h1 : (s.notice n).on = true) (h2 : (s.notice n).mask = 0) (h3 : (s.notice n).queue.length < 32) :
    ((s.raiseBoth i b).notice n).queue = (s.notice n).queue ++ [{ slot := i, tick := s.now, body := b }] := by
  have : (s.raiseBoth i b).notice n = (s.notice n).push { slot := i, tick := s.now, body := b } := by
    cases n <;> rfl
  rw [this]
  unfold NoticeQueue.push
  dsimp only
  rw [if_neg (by simp [h1, h2]), if_pos h3]

/-! ### Consequences that do not happen -/

theorem endSweepOf_off {s : State} {n : Node} (r : EndReason) (h : s.sweep.runsFor n = false) :
    endSweepOf n r s = s := by
  simp [endSweepOf, h]

theorem claimantLost_off {s : State} {n : Node} (h : (s.batch n).state ≠ .gathering) :
    claimantLost n s = s := by
  simp [claimantLost, h]

theorem trigger_off {s : State} {n : Node} (h : s.live n.partner = false) : trigger n s = s := by
  simp [trigger, h]

theorem handing_off {s : State} {i : Slot} (h : (s.slot i).phase ≠ .handing) : handingCheck i s = s := by
  unfold handingCheck
  dsimp only
  split
  · rename_i hh _ _
    exact absurd hh h
  · rfl

theorem drain_off {s : State} {i : Slot} (h : (s.slot i).phase ≠ .draining) : drainCheck i s = s := by
  unfold drainCheck
  dsimp only
  split
  · rename_i hh _
    exact absurd hh h
  · rfl

theorem live_after (s : State) (n : Node) (l : Lease) (o : Option Slot) (b : NoticeBody) :
    ((s.setLease n l).raise n.partner o b).live n.partner = s.live n.partner := by
  cases n <;> rfl

/-- An expiry with no gathering batch of the node, no sweep of it and no live partner. -/
theorem expire_plain {s : State} {n : Node} (hb : (s.batch n).state ≠ .gathering)
    (hs : s.sweep.runsFor n = false) (hl : s.live n.partner = false) :
    expire n s = (s.setLease n ((s.lease n).stop .expired)).raise n.partner none
      (.partnerExpired .expired ((s.lease n).grant.map Grant.lastHeartbeat)) := by
  unfold expire
  dsimp only
  rw [claimantLost_off (by exact hb), trigger_off (by rw [live_after]; exact hl),
    endSweepOf_off _ (by exact hs)]

/-! ### Writing back what is there, and the arbiter -/

theorem putAt_self {α : Type} {k : Nat} (v : Vector α k) (i : Fin k) : putAt v i v[i] = v := by
  ext j hj
  simp [putAt]

@[simp] theorem toDrive_nil (s : State) (i : Slot) : s.toDrive i [] = s := by
  unfold State.toDrive
  rw [List.append_nil, putAt_self]

@[simp] theorem setEngine_self (s : State) (i : Slot) : s.setEngine i (s.engine i) = s := by
  unfold State.setEngine State.engine
  rw [putAt_self]

/-- An engine with its waiting list written back. -/
theorem Engine.waiting_self {e : Engine} {cs : List Command} (h : e.waiting = cs) :
    ({ e with waiting := cs, tags := e.tags } : Engine) = e := by
  subst h
  rfl

/-- R55 item 2: what the arbiter does to the waiting list of a READY bay. -/
theorem serveWaiting_ready {s : State} {i : Slot} (h : (s.bay i).state = .ready) :
    s.serveWaiting i = (s.setEngine i { s.engine i with
        waiting := (s.engine i).waiting.drop (freeTags (s.engine i).tags).length
        tags := (s.engine i).tags ++ ((s.engine i).waiting.zip (freeTags (s.engine i).tags)).map
          (fun x => ⟨x.2, .active x.1 s.now⟩) }).toDrive i
      (((s.engine i).waiting.zip (freeTags (s.engine i).tags)).map
        (fun x => .command x.2 x.1.kind x.1.lba x.1.count)) := by
  simp only [State.serveWaiting, h, if_true, dispatchAll_eq]

theorem serveWaiting_closed {s : State} {i : Slot} (h : (s.bay i).state ≠ .ready) : s.serveWaiting i = s := by
  simp only [State.serveWaiting, if_neg h]

/-- R55 item 1: what the arbiter does to a probe request. -/
theorem serveProbe_served {s : State} {i : Slot} {p : DriveTag} {rest : List DriveTag}
    (hq : (s.engine i).probeRequest = true) (hf : freeTags (s.engine i).tags = p :: rest)
    (hb : (s.bay i).state = .ready ∨ (s.bay i).state = .suspect) :
    s.serveProbe i = ((s.setEngine i { s.engine i with
        probeRequest := false, tags := (s.engine i).tags ++ [⟨p, .probe true⟩] }).toDrive i
      [.identifyTagged p]).setSweep { s.sweep with probe := some (.dispatched p (s.now + 10000)) } := by
  simp only [State.serveProbe, hq, Bool.true_and, lowestFree_eq, hf, List.head?_cons]
  rw [if_pos (by simpa using hb)]
  rfl

theorem serveProbe_none {s : State} {i : Slot} (h : (s.engine i).probeRequest = false) :
    s.serveProbe i = s := by
  simp [State.serveProbe, h]

theorem serveProbe_closed {s : State} {i : Slot} (h1 : (s.bay i).state ≠ .ready)
    (h2 : (s.bay i).state ≠ .suspect) : s.serveProbe i = s := by
  simp [State.serveProbe, h1, h2]

/-- R55: with no probe requested, the arbiter of a READY bay serves the waiting commands and nothing else. -/
theorem arbiter_serves {s : State} {i : Slot} (hb : (s.bay i).state = .ready)
    (hq : (s.engine i).probeRequest = false) :
    s.Serves i (s.engine i) [] (s.arbiter i) ∧
      { s.arbiter i with engines := s.engines, driveOut := s.driveOut } = s ∧
      ∀ j, j ≠ i → (s.arbiter i).engine j = s.engine j ∧ (s.arbiter i).driveOut[j] = s.driveOut[j] := by
  unfold State.arbiter
  rw [serveProbe_none hq, serveWaiting_ready hb]
  refine ⟨⟨?_, ?_⟩, rfl, fun j hj => ⟨?_, ?_⟩⟩
  · change (State.setEngine s i _).engine i = _
    simp
  · change (putAt s.driveOut i _)[i] = _
    rw [putAt_get_same]
    simp
  · exact (State.setEngine_engine s i _ j).trans (if_neg hj)
  · change (putAt s.driveOut i _)[j] = _
    rw [putAt_get, if_neg hj]

/-- In any other bay state nothing is dispatched. -/
theorem arbiter_closed {s : State} {i : Slot} (hb : (s.bay i).state ≠ .ready)
    (h : (s.bay i).state ≠ .suspect ∨ (s.engine i).probeRequest = false) : s.arbiter i = s := by
  unfold State.arbiter
  rw [show s.serveProbe i = s from h.elim (serveProbe_closed hb) serveProbe_none, serveWaiting_closed hb]

theorem arbiter_quiet {s : State} {i : Slot} (h : s.Quiet i) : s.arbiter i = s := by
  unfold State.arbiter State.serveProbe
  dsimp only
  rw [if_neg (by simp [h.2])]
  unfold State.serveWaiting
  dsimp only
  split
  · simp only [h.1, dispatchAll, toDrive_nil]
    rw [Engine.waiting_self h.1, setEngine_self]
  · rfl

/-- One waiting command of a READY bay goes to the lowest FREE tag, or waits on. -/
theorem arbiter_one {s : State} {i : Slot} {c : Command} (hr : (s.bay i).state = .ready)
    (hp : (s.engine i).probeRequest = false) (hw : (s.engine i).waiting = [c]) :
    s.arbiter i = match lowestFree (s.engine i).tags with
      | some k => (s.setEngine i { s.engine i with
          waiting := [], tags := (s.engine i).tags ++ [⟨k, .active c s.now⟩] }).toDrive i
            [.command k c.kind c.lba c.count]
      | none => s := by
  unfold State.arbiter State.serveProbe
  dsimp only
  rw [if_neg (by simp [hp])]
  unfold State.serveWaiting
  dsimp only
  rw [if_pos hr, hw]
  simp only [dispatchAll]
  cases h : lowestFree (s.engine i).tags with
  | some k => rfl
  | none =>
    simp only [toDrive_nil]
    rw [Engine.waiting_self hw, setEngine_self]

/-! ### The lease that was left, and the measurement -/

@[simp] theorem Lease.leaveEnded_state (l : Lease) : l.leaveEnded.state = .absent := rfl
@[simp] theorem Lease.leaveEnded_absentCause (l : Lease) : l.leaveEnded.absentCause = some .left := rfl
@[simp] theorem Lease.leaveEnded_leftGone (l : Lease) :
    l.leaveEnded.leftGone = (decide (l.state = .expired) || l.leftGone) := rfl
@[simp] theorem Lease.leaveEnded_grant (l : Lease) : l.leaveEnded.grant = l.grant := rfl
@[simp] theorem Lease.leaveEnded_expiry (l : Lease) : l.leaveEnded.expiry = l.expiry := rfl
@[simp] theorem Lease.leaveEnded_lapse (l : Lease) : l.leaveEnded.lapse = l.lapse := rfl
@[simp] theorem Lease.leaveEnded_basis (l : Lease) : l.leaveEnded.basis = l.basis := rfl

/-- A gone node stays gone in every sense. -/
theorem State.staysGone_of_gone {s : State} {n : Node} (h : s.gone n = true) : s.staysGone n = true := by
  simp [State.staysGone, h]

/-- Once the grace has ended the two tests agree: every ABSENT node is gone. -/
theorem State.staysGone_eq_gone {s : State} {n : Node} (h : s.time.grace = false) :
    s.staysGone n = s.gone n := by
  simp only [State.staysGone, State.gone, h]
  cases decide ((s.lease n).state = .absent) <;> simp

/-- R36 item 2: a LEAVE taken in EXPIRED leaves the node gone for R99, the grace running or not. -/
theorem staysGone_of_leaveEnded {s : State} {n : Node} (h : (s.lease n).state = .expired) :
    (s.setLease n (s.lease n).leaveEnded).staysGone n = true := by
  simp [State.staysGone, h]

/-- A tick of the measurement touches nothing outside the timebase and the count of free values. -/
theorem measure_frame (s : State) :
    { s.measure with time := s.time, freeCount := s.freeCount } = s := by
  unfold State.measure; split <;> rfl

/-- Under REFERENCE nothing is measured. -/
theorem measure_reference {s : State} (h : s.time.source = .reference) : s.measure = s := by
  unfold State.measure; rw [h]

theorem Keeps.measure (s : State) : Keeps s s.measure := by
  unfold State.measure
  split
  · constructor <;> first | rfl | exact id
  · exact .refl s

/-! ### A slot that is probed at once -/

/-- A slot that needs a probe, at a bay where nothing waits and a tag is FREE: the probe is dispatched
under that tag (R57, R133 item 3). -/
theorem handleSlot_probes {s : State} {i : Slot} {k : DriveTag}
    (hb : (s.bay i).state = .ready ∨ (s.bay i).state = .suspect) (ho : s.outcomeAtOnce i = none)
    (hw : (s.engine i).waiting = []) (hk : lowestFree (s.engine i).tags = some k) :
    handleSlot i s = ((s.setEngine i { s.engine i with
        probeRequest := false, tags := (s.engine i).tags ++ [⟨k, .probe true⟩] }).toDrive i
          [.identifyTagged k]).setSweep { s.sweep with
        state := .probing, current := some i, probe := some (.dispatched k (later s.now 10000)) } := by
  have h : (s.setSweep { s.sweep with state := .probing, current := some i }).outcomeAtOnce i = none := ho
  unfold handleSlot
  dsimp only
  rw [h]
  dsimp only
  unfold State.requestProbe State.arbiter State.serveProbe
  dsimp only
  simp only [State.setSweep_engine, State.setSweep_bay, State.setEngine_engine, State.setEngine_bay, if_true]
  rw [if_pos (by rcases hb with h | h <;> simp [h])]
  simp only [hk]
  have served : ∀ u : State, (u.engine i).waiting = [] → u.serveWaiting i = u := by
    intro u hu
    unfold State.serveWaiting
    dsimp only
    split
    · simp only [hu, dispatchAll, toDrive_nil]
      rw [Engine.waiting_self hu, setEngine_self]
    · rfl
  rw [served]
  · unfold State.setSweep State.toDrive State.setEngine
    simp
    rfl
  · change (State.engine (State.setEngine _ i _) i).waiting = _
    simp [hw]

/-- A slot that needs a probe, at a bay with no tag FREE: the probe request waits there (R57, R133 item 3). -/
theorem handleSlot_requests {s : State} {i : Slot} (ho : s.outcomeAtOnce i = none)
    (hk : lowestFree (s.engine i).tags = none) :
    handleSlot i s = (s.setEngine i { s.engine i with probeRequest := true }).setSweep { s.sweep with
      state := .probing, current := some i, probe := some .requested } := by
  have h : (s.setSweep { s.sweep with state := .probing, current := some i }).outcomeAtOnce i = none := ho
  unfold handleSlot
  dsimp only
  rw [h]
  dsimp only
  unfold State.requestProbe
  dsimp only
  generalize hu : ((s.setSweep _).setEngine i _).setSweep _ = u
  have ue : u.engine i = { s.engine i with probeRequest := true } := by
    rw [← hu]
    change (s.setEngine i _).engine i = _
    simp
  have hf : freeTags (u.engine i).tags = [] := by
    rw [lowestFree_eq] at hk
    rw [ue]
    simpa using hk
  have hp : u.serveProbe i = u := by
    unfold State.serveProbe
    simp [lowestFree_eq, hf]
  have hw : u.serveWaiting i = u := by
    by_cases hr : (u.bay i).state = .ready
    · rw [serveWaiting_ready hr, hf]
      simp only [List.length_nil, List.drop_zero, List.zip_nil_right, List.map_nil, List.append_nil, toDrive_nil]
      exact setEngine_self u i
    · exact serveWaiting_closed hr
  unfold State.arbiter
  rw [hp, hw, ← hu]
  rfl

/-! ### A commit in a READY store -/

theorem beginCommit_slot (s : State) (i : Slot) (o : Owner) (p : CommitPath) (j : Slot) :
    (s.beginCommit i o p).slot j = if j = i then (s.slot i).begin o p else s.slot j := by
  change (s.setSlot i _).slot j = _
  rw [State.setSlot_slot]

/-- The commit step in a store that takes its update leaves the store so. -/
theorem startCommit_accepts {s : State} {i : Slot} {o : Owner} {p : CommitPath} {st : Store}
    (h : s.store.Accepts (s.commitUpdate i o) s.now st) :
    startCommit i o p s = (s.beginCommit i o p).setStore st := by
  have hf : s.store.mode ≠ .faulted := by
    rcases h with ⟨hm, _⟩ | ⟨⟨_, _, _, hm⟩, _⟩ <;> simp [hm]
  unfold startCommit startCommitWith
  dsimp only
  have e1 : (s.beginCommit i o p).store = s.store := rfl
  have e2 : (s.beginCommit i o p).bay i = s.bay i := rfl
  rw [if_neg (by simp [State.storeFaulted, e1, hf])]
  refine State.queueUpdate_of_accepts ?_
  rw [beginCommit_slot, if_pos rfl, e1, e2]
  exact h

/-- The commit step in a READY store with an empty queue starts the write of its update. -/
theorem startCommit_ready {s : State} {i : Slot} {o : Owner} {p : CommitPath} (h1 : s.store.mode = .ready)
    (h2 : s.store.queue = []) :
    startCommit i o p s = (s.beginCommit i o p).setStore { s.store with
      mode := .writing (s.commitUpdate i o) 1 s.now } :=
  startCommit_accepts (.inl ⟨h1, h2, rfl⟩)

/-! ### Operations that leave the slot records alone -/

@[simp] theorem sendCpl_slots (s : State) (n : Node) (i : Slot) (t : Byte) (st : CplStatus) (d : BitVec 16) :
    (s.sendCpl n i t st d).slots = s.slots := by
  unfold State.sendCpl; dsimp only; split <;> rfl

@[simp] theorem sendData_slots (s : State) (n : Node) (i : Slot) (t : Byte) (p : List Byte) :
    (s.sendData n i t p).slots = s.slots := by
  unfold State.sendData; dsimp only; split <;> rfl

@[simp] theorem reply_slots (s : State) (n : Node) (id : BitVec 16) (c : Byte) (r : Result) (d : List Byte) :
    (s.reply n id c r d).slots = s.slots := by
  unfold State.reply; dsimp only; split <;> rfl

@[simp] theorem sendCpls_slots (i : Slot) (st : CplStatus) (cs : List Command) (s : State) :
    (s.sendCpls i st cs).slots = s.slots := by
  have h := congrArg State.slots (sendCpls_ports i st cs s).1
  exact h

@[simp] theorem raise_slots (s : State) (n : Node) (i : Option Slot) (b : NoticeBody) :
    (s.raise n i b).slots = s.slots := rfl

@[simp] theorem raiseBoth_slots (s : State) (i : Option Slot) (b : NoticeBody) :
    (s.raiseBoth i b).slots = s.slots := rfl

@[simp] theorem toDrive_slots (s : State) (i : Slot) (fs : List DriveFrame) :
    (s.toDrive i fs).slots = s.slots := rfl

@[simp] theorem arbiter_slots (s : State) (i : Slot) : (s.arbiter i).slots = s.slots := by
  unfold State.arbiter State.serveWaiting
  dsimp only
  have : (s.serveProbe i).slots = s.slots := by
    unfold State.serveProbe
    dsimp only
    split
    · split <;> rfl
    · rfl
  split <;> exact this

@[simp] theorem queueUpdate_slots (s : State) (i : Slot) (w : Bool) : (s.queueUpdate i w).slots = s.slots := by
  unfold State.queueUpdate; split <;> rfl

@[simp] theorem withdraw_slots (s : State) (i : Slot) (st : CplStatus) : (s.withdraw i st).slots = s.slots := by
  simp [State.withdraw]

@[simp] theorem releaseProbe_slots (s : State) : s.releaseProbe.slots = s.slots := by
  unfold State.releaseProbe; split <;> rfl

@[simp] theorem endSweep_slots (r : EndReason) (s : State) : (endSweep r s).slots = s.slots := by
  unfold endSweep
  split
  · simp
  · rfl

@[simp] theorem endSweepOf_slots (n : Node) (r : EndReason) (s : State) :
    (endSweepOf n r s).slots = s.slots := by
  unfold endSweepOf; split <;> simp

@[simp] theorem produce_slots (s : State) (w : SweepRun) (r : AuditResult) :
    (s.produce w r).1.slots = s.slots := by
  unfold State.produce; dsimp only; split <;> rfl

@[simp] theorem requestProbe_slots (s : State) (i : Slot) : (s.requestProbe i).slots = s.slots := by
  simp [State.requestProbe]

@[simp] theorem walkOn_slots (k : Nat) : ∀ (c : Slot) (s : State), (walkOn k c s).slots = s.slots := by
  induction k with
  | zero => exact fun _ _ => rfl
  | succ k ih =>
    intro c s
    unfold walkOn
    dsimp only
    split
    · rfl
    · split
      · simp
      · rfl
      · split
        · simp
        · split
          · rw [ih]; simp
          · simp

@[simp] theorem settle_slots (c : Slot) (r : AuditResult) (s : State) : (settle c r s).slots = s.slots := by
  unfold settle
  dsimp only
  split
  · rfl
  · split <;> simp

@[simp] theorem handleSlot_slots (c : Slot) (s : State) : (handleSlot c s).slots = s.slots := by
  unfold handleSlot; dsimp only; split <;> simp

@[simp] theorem settleProbe_slots (c : Slot) (o : AuditOutcome) (fp : Option Fingerprint)
    (st : Option (BitVec 16)) (s : State) : (settleProbe c o fp st s).slots = s.slots := by
  simp [settleProbe]

end Sys2Proof.Machine
end

