-- ==== Sys2Proof/Laws/Ends.lean ====
section
/-! SUPPORT. What the end of a commit comes to (R9, R10, R95, R96), and the completion of updates one
after another (R160, R161). -/

namespace Sys2Proof.Machine

/-! ### The end of a commit -/

/-- R10 finds nothing to do for an owner that is not gone. -/
theorem commitCheckWith_off {run : Node → State → State} {i : Slot} {s : State}
    (h : ∀ x, (s.slot i).owner = some x → s.gone x = false) : commitCheckWith run i s = s := by
  unfold commitCheckWith
  dsimp only
  split
  · rename_i x _ ho
    rw [h x ho]
    rfl
  · rfl

/-- R99: with no slot marked for the node nothing is deferred. -/
theorem deferredWith_off {run : Node → State → State} {n : Node} {s : State}
    (h : ∀ j, (s.slot j).autoPending ≠ some n) : deferredWith run n s = s := by
  unfold deferredWith
  have : allSlots.filter (fun i => decide ((s.slot i).autoPending = some n)) = [] := by simp [h]
  rw [this]
  rfl

/-- A member's new record, in the batch it is a member of. -/
theorem memberDone_of_mem {s : State} {n : Node} {i : Slot} {m : Member}
    (hm : m ∈ (s.batch n).members) (hi : m.slot = i)
    (hn : ((s.batch n).members.map Member.slot).Nodup) :
    (s.batch n).members.find? (fun k => decide (k.slot = i)) = some m := by
  generalize (s.batch n).members = ms at *
  induction ms with
  | nil => cases hm
  | cons k ks ih =>
    rw [List.map_cons, List.nodup_cons] at hn
    rcases List.mem_cons.1 hm with rfl | hk
    · simp [hi]
    · have : k.slot ≠ i := fun h => hn.1 (by rw [h, ← hi]; exact List.mem_map_of_mem hk)
      rw [List.find?_cons_of_neg (by simp [this])]
      exact ih hk hn.2

/-- R9, R95: what the end of a commit comes to. -/
theorem commitDone_ends {i : Slot} {stored : Bool} {s : State} (hp : (s.slot i).phase = .committing) :
    s.CommitEnds i stored (commitDone i stored s) := by
  rintro r u rfl rfl
  have hr : (s.slot i).rest = { s.slot i with
      phase := if (s.slot i).owner.isSome then .owned else .unowned, target := none, path := none
      batch := none, drainDeadline := none, former := none } := rfl
  have key : ∀ t : State, afterResultsWith runBatch (s.slot i)
        ((s.setSlot i (s.slot i).rest).commitResults i (s.slot i) stored) = t →
      t.leases = s.leases → t.time = s.time → (t.slot i).owner = (s.slot i).owner →
      (∀ x, (s.slot i).owner = some x → s.gone x = false) → commitDone i stored s = t := by
    intro t ht hl hti ho hg
    unfold commitDone finishWith
    rw [if_pos hp, ht, commitCheckWith_off]
    intro x hx
    have : t.gone x = s.gone x := by unfold State.gone State.lease; rw [hl, hti]
    rw [this]
    exact hg x (ho ▸ hx)
  refine ⟨?_, ?_, ?_, ?_⟩
  · rintro n h1 h2 hg own others rfl rfl
    have hg' : ∀ x, (s.slot i).owner = some x → s.gone x = false := by
      intro x hx; rw [h2] at hx; cases hx; exact hg
    refine ⟨fun h0 => ?_, fun id h0 => ?_⟩
    · have hf : (s.port n).awaiting.find? (fun w => decide (w.slot = i)) = none := by
        rw [← List.head?_filter, h0]; rfl
      refine key _ ?_ rfl rfl (by change (State.slot (s.setSlot i _) i).owner = _; simp) hg'
      unfold afterResultsWith State.commitResults State.claimReply
      simp only [h1, h2, State.setSlot_port, hf, hr]
    · have hf : (s.port n).awaiting.find? (fun w => decide (w.slot = i)) = some ⟨id, i⟩ := by
        rw [← List.head?_filter, h0]; rfl
      refine key _ ?_ rfl rfl (by change (State.slot (s.setSlot i _) i).owner = _; simp) hg'
      unfold afterResultsWith State.commitResults State.claimReply State.reply
      simp only [h1, h2, State.setSlot_port, hf, hr, State.setPort_port, if_true, State.setSlot_slot]
      split <;> cases stored <;> simp [flag, *]
  · intro x h1 h2 h3
    refine key _ ?_ rfl rfl (by change (State.slot (s.setSlot i _) i).owner = _; simp) (by simp [h2])
    unfold afterResultsWith State.commitResults
    simp only [h1, h2, h3, hr]
    rfl
  · intro n h1 h2 hg
    refine key _ ?_ rfl rfl (by change (State.slot (s.setSlot i _) i).owner = _; simp) (by intro x hx; rw [h2] at hx; cases hx; exact hg)
    unfold afterResultsWith State.commitResults
    simp only [h1, h2, hr]
    rfl
  · rintro n m h1 h2 hg ha hm hi hn ms v w hms rfl hw last hlast
    have hg' : ∀ x, (s.slot i).owner = some x → s.gone x = false := by
      intro x hx; rw [h2] at hx; cases hx; exact hg
    have hw' : (s.setSlot i (s.slot i).rest).commitResults i (s.slot i) stored = w := by
      unfold State.commitResults
      simp only [h1, h2]
      unfold State.memberDone
      dsimp only
      simp only [State.setSlot_batch, memberDone_of_mem hm hi hn]
      have hd : ((s.setSlot i (s.slot i).rest).setMember n i fun k => { k with
            status := if (s.bay i).state = .failed then .takenFaulted else .taken
            newGeneration := some (s.slot i).generation, stored := some stored }) =
          (s.setSlot i (s.slot i).rest).setBatch n { s.batch n with members := ms } := by
        rw [hms]; rfl
      have hg2 : ((s.setSlot i (s.slot i).rest).slot i).generation = (s.slot i).generation := by
        simp [hr]
      have hb2 : (s.setSlot i (s.slot i).rest).bay i = s.bay i := rfl
      rw [hg2, hb2, hd]
      rcases hw with ⟨hpr, rfl⟩ | ⟨p, hpr, hold, hrep, rfl⟩
      · rw [hpr]; rfl
      · rw [hpr, hold]
        dsimp only
        have hrep2 : ((s.setSlot i (s.slot i).rest).setBatch n { s.batch n with members := ms }).report i =
          some p := hrep
        unfold State.closeReport
        rw [hrep2]; rfl
    have hf : w.batch n = { s.batch n with members := ms } ∧ w.leases = s.leases ∧ w.time = s.time ∧
        (∀ j, w.slot j = (s.setSlot i (s.slot i).rest).slot j) := by
      rcases hw with ⟨-, rfl⟩ | ⟨p, -, -, -, rfl⟩
      · exact ⟨by change (State.batch (State.setBatch _ n _) n) = _; simp, rfl, rfl, fun _ => rfl⟩
      · exact ⟨by change (State.batch (State.setBatch _ n _) n) = _; simp, rfl, rfl, fun _ => rfl⟩
    obtain ⟨wb, wl, wt, ws⟩ := hf
    have wo : (w.slot i).owner = (s.slot i).owner := by rw [ws]; simp [hr]
    have hdone : batchDone (w.batch n) = true ↔ last := by
      rw [hlast, wb]
      simp [batchDone]
    have hafter : afterResultsWith runBatch (s.slot i) w = checkBatchWith runBatch n w := by
      unfold afterResultsWith
      simp only [h1, h2]
    refine ⟨fun hl => ?_, fun hl o ho => ?_⟩
    · refine key _ ?_ wl wt wo hg'
      rw [hw', hafter]
      unfold checkBatchWith
      rw [if_neg (fun h => hl (hdone.1 h))]
    · have hc : checkBatchWith runBatch n w = w.closeBatch n o := by
        have hro : runOutcome (w.batch n).members = o := by
          have h0 : countStatus .taken ms + countStatus .takenFaulted ms ≠ 0 := by
            have pos : ∀ st, (∃ k ∈ ms, k.status = st) → 0 < countStatus st ms := by
              rintro st ⟨k, hk, hs⟩
              exact List.length_pos_of_mem (List.mem_filter.2 ⟨hk, by simp [hs]⟩)
            have hmem := List.mem_map_of_mem (f := fun k : Member => if k.slot = i then { k with
                status := if (s.bay i).state = .failed then .takenFaulted else .taken
                newGeneration := some (s.slot i).generation, stored := some stored } else k) hm
            rw [← hms] at hmem
            have h5 := pos _ ⟨_, hmem, rfl⟩
            rw [if_pos hi] at h5
            dsimp only at h5
            split at h5 <;> omega
          have h3 : countStatus .skippedHeld ms = 0 ↔ ∀ k ∈ ms, k.status ≠ .skippedHeld := by
            simp [countStatus, List.filter_eq_nil_iff]
          rw [wb, ho]
          unfold runOutcome
          dsimp only
          rw [if_neg h0]
          by_cases h : countStatus .skippedHeld ms = 0
          · rw [if_pos h, if_pos (h3.1 h)]
          · rw [if_neg h, if_neg (fun h' => h (h3.2 h'))]
        unfold checkBatchWith
        rw [if_pos (hdone.2 hl), hro]
        unfold endBatchWith
        refine deferredWith_off (fun j => ?_)
        change (w.slot j).autoPending ≠ some n
        rw [ws, State.setSlot_slot]
        split
        · rename_i h; subst h; exact ha _
        · exact ha j
      refine key _ ?_ wl wt wo hg'
      rw [hw', hafter, hc]
      unfold State.closeBatch
      rw [wb, show w.now = s.now by unfold State.now; rw [wt]]

/-- R8: while the store is FAULTED a commit ends at the event that begins it. -/
theorem startCommit_faulted {s : State} {i : Slot} {o : Owner} {p : CommitPath}
    (h : s.store.mode = .faulted) : startCommit i o p s = commitDone i false (s.beginCommit i o p) := by
  unfold startCommit startCommitWith
  dsimp only
  exact if_pos (decide_eq_true h)

/-! ### Updates that complete -/

/-- R160, R161: updates complete one after another. -/
theorem completeUpdates (stored : Bool) : ∀ (us : List Update) (s : State),
    s.Complete stored us (us.foldl (fun s u => completeUpdate stored u s) s)
  | [], _ => rfl
  | u :: us, s => by
    refine ⟨completeUpdate stored u s, fun h => ?_, fun h hp => ?_, completeUpdates stored us _⟩
    · simp [completeUpdate, h]
    · rw [completeUpdate, if_pos h]
      exact commitDone_ends hp

end Sys2Proof.Machine
end

