-- ==== Sys2Proof/Laws/Resets.lean ====
section
/-! SUPPORT. What a link reset that starts comes to (R120), stated once. -/

namespace Sys2Proof.Machine

/-- Everything a link reset that starts at a bay changes, and what it leaves as it is. -/
structure ResetBegun (s : State) (i : Slot) (cause : ResetCause) (t : State) : Prop where
  bay : t.bay i = { s.bay i with
    state := .resetting, capacity := none, presented := none, resetCause := some cause
    resetDeadline := some (later s.now (s.timing.resetLimit * 10))
    resetsStarted := satInc (s.bay i).resetsStarted, awaits := .readySignal }
  eng : t.engine i = { s.engine i with tags := [], probeRequest := false }
  port : ∀ n, (t.port n).state = (s.port n).state ∧
    ((s.port n).state = .up → (t.port n).unsent = (s.port n).unsent ++
      cplsFor n i .abortedReset (s.slot i).generation (activeCommands (s.engine i).tags))
  rep : t.report i = (s.report i).map (·.abort cause s.now)
  out : t.driveOut[i] = s.driveOut[i] ++ [.linkReset]
  sl : t.slots = s.slots
  win : t.windows = s.windows
  sto : t.store = s.store
  bat : t.batches = s.batches
  noti : t.notices = s.notices
  tim : t.time = s.time
  lea : t.leases = s.leases
  pow : t.power = s.power
  swp : t.sweep = s.sweep
  oth : ∀ j, j ≠ i → t.bay j = s.bay j ∧ t.engine j = s.engine j

theorem beginReset_spec (s : State) (i : Slot) (c : ResetCause) : ResetBegun s i c (s.beginReset i c) := by
  unfold State.beginReset State.endTagsByReset
  dsimp only
  generalize hb : s.setBay i { (s.bay i).forget with
    state := .resetting, resetCause := some c
    resetDeadline := some (later s.now (s.timing.resetLimit * 10))
    resetsStarted := satInc (s.bay i).resetsStarted, awaits := .readySignal } = b
  generalize hv : b.setEngine i { b.engine i with probeRequest := false } = v
  have ve : v.engine i = { s.engine i with probeRequest := false } := by rw [← hv, ← hb]; simp
  have vr : v.report i = s.report i := by rw [← hv, ← hb]; rfl
  rw [ve, vr]
  generalize hu : ((v.setEngine i { s.engine i with tags := [], probeRequest := false }).setReport i
    ((s.report i).map (·.abort c v.now))) = u
  obtain ⟨a, p⟩ := sendCpls_ports i .abortedReset (activeCommands (s.engine i).tags) u
  generalize hw : u.sendCpls i .abortedReset (activeCommands (s.engine i).tags) = w at *
  have keep : ∀ {α : Type} (f : State → α) (_ : ∀ u p, f { u with ports := p } = f u), f w = f u :=
    fun f hf => same_but_ports a f hf
  constructor
  · change w.bay i = _
    rw [keep (fun x => x.bay i) (fun _ _ => rfl), ← hu, ← hv, ← hb]
    change (s.setBay i _).bay i = _
    simp [Bay.forget]
  · change w.engine i = _
    rw [keep (fun x => x.engine i) (fun _ _ => rfl), ← hu]
    change (v.setEngine i _).engine i = _
    simp
  · intro n
    have up : u.port n = s.port n := by rw [← hu, ← hv, ← hb]; rfl
    have h := p n
    rw [up, show (u.slot i).generation = (s.slot i).generation by rw [← hu, ← hv, ← hb]; rfl] at h
    exact h
  · change w.report i = _
    rw [keep (fun x => x.report i) (fun _ _ => rfl), ← hu, State.setReport_report, if_pos rfl,
      show v.now = s.now by rw [← hv, ← hb]; rfl]
  · change (putAt w.driveOut i _)[i] = _
    rw [putAt_get_same, keep State.driveOut (fun _ _ => rfl), ← hu, ← hv, ← hb]
    rfl
  · change w.slots = _
    rw [keep State.slots (fun _ _ => rfl), ← hu, ← hv, ← hb]
    rfl
  · change w.windows = _
    rw [keep State.windows (fun _ _ => rfl), ← hu, ← hv, ← hb]
    rfl
  · change w.store = _
    rw [keep State.store (fun _ _ => rfl), ← hu, ← hv, ← hb]
    rfl
  · change w.batches = _
    rw [keep State.batches (fun _ _ => rfl), ← hu, ← hv, ← hb]
    rfl
  · change w.notices = _
    rw [keep State.notices (fun _ _ => rfl), ← hu, ← hv, ← hb]
    rfl
  · change w.time = _
    rw [keep State.time (fun _ _ => rfl), ← hu, ← hv, ← hb]
    rfl
  · change w.leases = _
    rw [keep State.leases (fun _ _ => rfl), ← hu, ← hv, ← hb]
    rfl
  · change w.power = _
    rw [keep State.power (fun _ _ => rfl), ← hu, ← hv, ← hb]
    rfl
  · change w.sweep = _
    rw [keep State.sweep (fun _ _ => rfl), ← hu, ← hv, ← hb]
    rfl
  · intro j hj
    constructor
    · change w.bay j = _
      rw [keep (fun x => x.bay j) (fun _ _ => rfl), ← hu, ← hv, ← hb]
      change (s.setBay i _).bay j = _
      rw [State.setBay_bay, if_neg hj]
    · change w.engine j = _
      rw [keep (fun x => x.engine j) (fun _ _ => rfl), ← hu]
      change (v.setEngine i _).engine j = _
      rw [State.setEngine_engine, if_neg hj, ← hv, State.setEngine_engine, if_neg hj, ← hb]
      rfl

/-- With the slot not HANDING and no probe outstanding, a link reset is its beginning. -/
theorem linkReset_still {s : State} {i : Slot} {c : ResetCause} (hr : s.resettable i = true)
    (hS : (s.slot i).phase ≠ .handing) (hp : s.probing i = false) :
    linkReset i c s = s.beginReset i c := by
  unfold linkReset
  rw [if_pos hr]
  dsimp only
  rw [hp, handing_off (by unfold State.slot; rw [(beginReset_spec s i c).sl]; exact hS)]
  rfl

end Sys2Proof.Machine
end

