-- ==== Sys2Proof/Laws/Walk.lean ====
section
/-! SUPPORT. What an audit probe that is settled comes to (R132, R134, R137), and what the walk after it
leaves as it is. -/

namespace Sys2Proof.Machine

/-- The two states agree on the slots, the bays, the ports and the engine of one bay. -/
structure BayStands (i : Slot) (s t : State) : Prop where
  slots : t.slots = s.slots
  bays : t.bays = s.bays
  ports : t.ports = s.ports
  engine : t.engine i = s.engine i

theorem BayStands.refl (i : Slot) (s : State) : BayStands i s s := ⟨rfl, rfl, rfl, rfl⟩

theorem BayStands.trans {i : Slot} {s t u : State} (a : BayStands i s t) (b : BayStands i t u) :
    BayStands i s u :=
  ⟨b.slots.trans a.slots, b.bays.trans a.bays, b.ports.trans a.ports, b.engine.trans a.engine⟩

theorem BayStands.outcome {i : Slot} {s t : State} (a : BayStands i s t) (j : Slot) :
    t.outcomeAtOnce j = s.outcomeAtOnce j := by
  unfold State.outcomeAtOnce State.bay State.slot
  rw [a.bays, a.slots]

/-- A change of one engine leaves the other bays as they are. -/
theorem BayStands.setEngine {i j : Slot} (h : i ≠ j) (s : State) (e : Engine) :
    BayStands i s (s.setEngine j e) :=
  ⟨rfl, rfl, rfl, by rw [State.setEngine_engine, if_neg h]⟩

/-- The arbiter of one bay leaves the other bays as they are. -/
theorem BayStands.arbiter {i j : Slot} (h : i ≠ j) (s : State) : BayStands i s (s.arbiter j) := by
  have probe : ∀ v : State, BayStands i v (v.serveProbe j) := by
    intro v
    unfold State.serveProbe
    dsimp only
    split
    · split
      · exact (BayStands.setEngine h v _).trans ⟨rfl, rfl, rfl, rfl⟩
      · exact .refl i v
    · exact .refl i v
  have waiting : ∀ v : State, BayStands i v (v.serveWaiting j) := by
    intro v
    unfold State.serveWaiting
    dsimp only
    split
    · exact (BayStands.setEngine h v _).trans ⟨rfl, rfl, rfl, rfl⟩
    · exact .refl i v
  exact (probe s).trans (waiting _)

theorem BayStands.requestProbe {i j : Slot} (h : i ≠ j) (s : State) :
    BayStands i s (s.requestProbe j) := by
  unfold State.requestProbe
  generalize hu : s.setEngine j _ = u
  have su : BayStands i s u := hu ▸ .setEngine h s _
  have uv : ∀ w, BayStands i u (u.setSweep w) := fun _ => ⟨rfl, rfl, rfl, rfl⟩
  exact (su.trans (uv _)).trans (.arbiter h _)

theorem BayStands.produce (i : Slot) (s : State) (w : SweepRun) (r : AuditResult) :
    BayStands i s (s.produce w r).1 ∧ (s.produce w r).1.sweep.probe = s.sweep.probe := by
  unfold State.produce
  dsimp only
  split <;> exact ⟨⟨rfl, rfl, rfl, rfl⟩, rfl⟩

theorem releaseProbe_off {s : State} (h : s.sweep.probe = none) : s.releaseProbe = s := by
  unfold State.releaseProbe
  rw [h]
  split <;> simp_all

/-- R132, R133: the walk leaves a bay that needs no probe as it is. -/
theorem BayStands.walkOn {i : Slot} : ∀ (k : Nat) (cur : Slot) (s : State), s.sweep.probe = none →
    s.outcomeAtOnce i ≠ none → BayStands i s (walkOn k cur s)
  | 0, _, s, _, _ => .refl i s
  | k + 1, cur, s, hp, ho => by
    unfold Machine.walkOn
    split
    · exact .refl i s
    · rename_i w _
      split
      · unfold endSweep
        split
        · rw [releaseProbe_off hp]
          exact ⟨rfl, rfl, rfl, rfl⟩
        · exact .refl i s
      · exact ⟨rfl, rfl, rfl, rfl⟩
      · rename_i next pass _
        dsimp only
        generalize hv : s.setSweep _ = v
        have sv : BayStands i s v := by rw [← hv]; exact ⟨rfl, rfl, rfl, rfl⟩
        have hvp : v.sweep.probe = none := by rw [← hv]; exact hp
        split
        · rename_i hn
          refine sv.trans (.requestProbe ?_ v)
          rintro rfl
          exact ho ((sv.outcome i).symm.trans hn)
        · rename_i o _
          have q := BayStands.produce i v { w with pass := pass } (v.auditResult next o none none)
          split
          · exact (sv.trans q.1).trans
              (.walkOn k next _ (q.2.trans hvp) (by rw [(sv.trans q.1).outcome]; exact ho))
          · exact sv.trans q.1

/-- R134: a probe settled at a bay that needs none leaves slots, bays, ports and that engine as they are. -/
theorem settleProbe_stands {i : Slot} (o : AuditOutcome) (fp : Option Fingerprint)
    (st : Option (BitVec 16)) {s : State} (h : s.outcomeAtOnce i ≠ none) :
    BayStands i s (settleProbe i o fp st s) := by
  unfold settleProbe settle
  dsimp only
  generalize hv : s.setSweep _ = v
  have sv : BayStands i s v := by rw [← hv]; exact ⟨rfl, rfl, rfl, rfl⟩
  have hvp : v.sweep.probe = none := by rw [← hv]; rfl
  split
  · exact sv
  · rename_i w _
    have q := BayStands.produce i v w (v.auditResult i o fp st)
    split
    · exact (sv.trans q.1).trans
        (.walkOn 33 i _ (q.2.trans hvp) (by rw [(sv.trans q.1).outcome]; exact h))
    · exact sv.trans q.1

/-- R132, R134, R137: a settled probe at the last slot of a sweep that is not CYCLIC ends it with DONE, at an
earlier slot of a STEPPED one it pauses it, and with the requester's queue full it stays in the holder. Nothing
but the sweep and the requester's queue changes. -/
theorem settleProbe_places {v : State} {i : Slot} {o : AuditOutcome} {fp : Option Fingerprint}
    {st : Option (BitVec 16)} {w : SweepRun}
    (hw : v.sweep.run = some w) (hb : w.budget = 0) (on : (v.notice w.requester).on = true)
    (mk : (v.notice w.requester).mask = 0) {r : AuditResult}
    (hr : r = v.auditResult i o fp st) {w' : SweepRun}
    (hw' : w' = { w with issued := satInc w.issued }) :
    ∀ t, settleProbe i o fp st v = t →
    ((v.notice w.requester).queue.length < 31 → w.last = i → w.mode ≠ .cyclic →
      t.sweep = { v.sweep with
        state := .idle, current := none, probe := none, holder := none, run := some w'
        table := putAt v.sweep.table i (some r), ended := some (.done, v.now) } ∧
      (t.notice w.requester).queue = (v.notice w.requester).queue ++
        [r.notice, { slot := none, tick := v.now, body := .auditEnded .done w'.issued w.pass }] ∧
      { t with sweep := v.sweep, notices := v.notices } = v ∧
      t.notice w.requester.partner = v.notice w.requester.partner) ∧
    ((v.notice w.requester).queue.length < 32 → w.last ≠ i → w.mode = .stepped →
      t.sweep = { v.sweep with
        state := .pausedStep, current := some (i + 1), probe := none, holder := none, run := some w'
        table := putAt v.sweep.table i (some r) } ∧
      (t.notice w.requester).queue = (v.notice w.requester).queue ++ [r.notice] ∧
      { t with sweep := v.sweep, notices := v.notices } = v ∧
      t.notice w.requester.partner = v.notice w.requester.partner) ∧
    (32 ≤ (v.notice w.requester).queue.length →
      t.sweep = { v.sweep with
        state := .pausedFull, probe := none, holder := some r, table := putAt v.sweep.table i (some r) } ∧
      (t.notice w.requester).queue = (v.notice w.requester).queue ∧
      { t with sweep := v.sweep, notices := v.notices } = v ∧
      t.notice w.requester.partner = v.notice w.requester.partner) := by
  rintro _ rfl
  have hrs : r.slot = i := by rw [hr]; rfl
  unfold settleProbe settle
  dsimp only
  rw [show (v.setSweep { v.sweep with probe := none }).auditResult i o fp st = r by rw [hr]; rfl]
  generalize hu : v.setSweep { v.sweep with probe := none } = u
  have usw : u.sweep = { v.sweep with probe := none } := by rw [← hu]; rfl
  rw [show u.sweep.run = some w by rw [usw]; exact hw]
  unfold State.produce
  dsimp only
  generalize hp : (u.tableResult r).markResult w.requester r = p
  have psw : p.sweep = { v.sweep with probe := none, table := putAt v.sweep.table i (some r) } := by
    rw [← hp, ← hrs]
    simp [State.tableResult, State.markResult, usw]
  have pn : p.notice w.requester = { v.notice w.requester with
      summary := (v.notice w.requester).summary ||| kindBit r.notice.body } := by
    rw [← hp]
    unfold State.markResult
    rw [State.setNotice_notice, if_pos rfl,
      show (u.tableResult r).notice w.requester = v.notice w.requester by rw [← hu]; rfl]
  have pt : p.now = v.now := by rw [← hp, ← hu]; rfl
  have pf : { p with sweep := v.sweep, notices := v.notices } = v := by rw [← hp, ← hu]; rfl
  have pp : p.notice w.requester.partner = v.notice w.requester.partner := by
    rw [← hp, ← hu]
    unfold State.markResult
    cases w.requester <;> rfl
  have place : (p.notice w.requester).hasPlace =
      decide ((v.notice w.requester).queue.length < 32) := by
    unfold NoticeQueue.hasPlace
    rw [pn]
    simp [on]
  by_cases hlen : (v.notice w.requester).queue.length < 32
  · simp only [if_pos (place.trans (decide_eq_true hlen)), if_true]
    generalize hz : p.placeResult w r = z
    have zsw : z.sweep = { v.sweep with
        probe := none, table := putAt v.sweep.table i (some r), holder := none, state := .probing
        run := some w' } := by
      rw [← hz, hw']
      unfold State.placeResult
      simp [psw]
    have zn : z.notice w.requester = { v.notice w.requester with
        queue := (v.notice w.requester).queue ++ [r.notice], attention := true
        summary := (v.notice w.requester).summary ||| kindBit r.notice.body } := by
      rw [← hz]
      unfold State.placeResult
      dsimp only
      change State.notice (p.setNotice _ _) _ = _
      rw [State.setNotice_notice, if_pos rfl, pn]
    have zt : z.now = v.now := by rw [← hz]; exact pt
    have zf : { z with sweep := v.sweep, notices := v.notices } = v := by rw [← hz]; exact pf
    have zp : z.notice w.requester.partner = v.notice w.requester.partner := by
      rw [← pp, ← hz]
      unfold State.placeResult
      cases w.requester <;> rfl
    have zr : z.sweep.run = some w' := by rw [zsw]
    refine ⟨fun hl hla hm => ?_, fun _ hla hm => ?_, fun h => absurd hlen (by omega)⟩
    · have ha : advanceOf w' i = .ends .done := by
        rw [hw']
        unfold advanceOf
        simp [hb, hla, hm]
      have he : walkOn 33 i z = (z.setSweep { z.sweep with
          state := .idle, current := none, probe := none, holder := none
          ended := some (.done, z.now) }).raise w.requester none (.auditEnded .done w'.issued w.pass) := by
        unfold Machine.walkOn
        rw [zr]
        dsimp only
        rw [ha]
        dsimp only
        unfold endSweep
        rw [zr]
        dsimp only
        rw [releaseProbe_off (by rw [zsw]), zr, hw']
      rw [he]
      refine ⟨?_, ?_, zf, ?_⟩
      · change (State.sweep (z.setSweep _)) = _
        rw [State.setSweep_sweep, zsw, zt]
        rfl
      · rw [raise_queue _ _ _ _ (by change (z.notice _).on = true; rw [zn]; exact on)
          (by change (z.notice _).mask = 0; rw [zn]; exact mk)
          (by change (z.notice _).queue.length < 32; rw [zn]; simp; omega)]
        change (z.notice _).queue ++ [{ slot := none, tick := z.now, body := _ }] = _
        rw [zn, zt]
        simp
      · rw [← zp]
        cases w.requester <;> rfl
    · have ha : advanceOf w' i = .pauses (i + 1) := by
        rw [hw']
        unfold advanceOf
        simp [hb, Ne.symm hla, hm]
      have he : walkOn 33 i z =
          z.setSweep { z.sweep with state := .pausedStep, current := some (i + 1) } := by
        unfold Machine.walkOn
        rw [zr]
        dsimp only
        rw [ha]
      rw [he]
      refine ⟨?_, ?_, zf, zp⟩
      · rw [State.setSweep_sweep, zsw]
      · change (z.notice _).queue = _
        rw [zn]
  · have full : ¬(p.notice w.requester).hasPlace = true := by
      rw [place]
      simpa using hlen
    simp only [if_neg full, Bool.false_eq_true, if_false]
    refine ⟨fun h => absurd h (by omega), fun h => absurd h (by omega), fun _ => ⟨?_, ?_, pf, pp⟩⟩
    · unfold State.holdResult
      simp [psw]
    · change (p.notice _).queue = _
      rw [pn]

end Sys2Proof.Machine
end

