-- ==== Sys2Proof/Tests/Slice0.lean ====
section
/-! SUPPORT. The model's own tests: the ill-formed commands that WellFormed refuses, the spec's worked
examples, and for each statement with hypotheses a state and operands that meet them, clause by clause,
at boundary values where clauses meet. -/

namespace Sys2Proof.Tests

open Sys2Proof Sys2Proof.Machine

/-! ### WellFormed -/

theorem test_payload_empty_refused : (Instr.data .a 0 0 []).wellFormed = false := by decide

theorem test_payload_bounds : payloadOk (List.replicate 1023 0) = true ∧
    payloadOk (List.replicate 1024 0) = false := by
  constructor <;> simp only [payloadOk, List.length_replicate] <;> decide

theorem test_drive_payload_empty_refused : (Instr.driveDataFrame 0 0 []).wellFormed = false := by decide

theorem test_received_bounds : receivedOk (List.replicate 1032 0) = true ∧
    receivedOk (List.replicate 1033 0) = false := by
  constructor <;> simp only [receivedOk, List.length_replicate] <;> decide

theorem test_received_too_long_refused (n : Node) :
    (Instr.crcCheckFailed n (List.replicate 1033 0)).wellFormed = false ∧
    (Instr.protocolFault n (List.replicate 1033 0)).wellFormed = false ∧
    (Instr.haltedFrameDiscard n (List.replicate 1033 0)).wellFormed = false ∧
    (Instr.badRequest n (List.replicate 1033 0)).wellFormed = false := by
  simp only [Instr.wellFormed, receivedOk, List.length_replicate]; decide

/-! ### The spec's worked examples -/

/-- R164: "123456789" gives E3069283h. -/
theorem test_crc_check_value :
    crc32 [0x31, 0x32, 0x33, 0x34, 0x35, 0x36, 0x37, 0x38, 0x39] = 0xE3069283 := by decide +kernel

/-- 12.5: the frame without its CRC, byte by byte, and the CMD it is. -/
theorem test_frame_of_12_5 :
    (frameBytes 1 3 (u8 7 ++ u8 2 ++ u16 0x29 ++ u48 8192 ++ u16 64)).take 16 =
      [0x01, 0x03, 0x00, 0x0C, 0x07, 0x02, 0x00, 0x29, 0x00, 0x00, 0x00, 0x00, 0x20, 0x00, 0x00, 0x40] ∧
    commandOfFrame .up .a (frameBytes 1 3 (u8 7 ++ u8 2 ++ u16 0x29 ++ u48 8192 ++ u16 64)) =
      some (.cmd .a 3 7 2 41 8192 64) := by decide +kernel

/-- 12.5: the refusal as STALE_GENERATION. -/
theorem test_cpl_of_12_5 :
    ((NodeFrame.cpl 3 7 .staleGeneration 42 0).bytes).take 10 =
      [0x02, 0x03, 0x00, 0x06, 0x07, 0x03, 0x00, 0x2A, 0x00, 0x00] := by decide +kernel

/-- R29, the table of examples: Rounded, Fallback, Fine period, Allowance clamped, Rounding up. -/
theorem test_spans :
    spanTicks 500 3 (tolerance .reference) = 15023 ∧ spanTicks 500 3 (tolerance .fallback) = 15320 ∧
    spanTicks 100 5 (tolerance .reference) = 5021 ∧ spanTicks 2000 (missOf 12) (tolerance .reference) = 160052 ∧
    spanTicks 50 7 (tolerance .reference) = 3521 ∧ spanTicks 20 1 (tolerance .reference) = 221 ∧
    spanTicks 20000 8 (tolerance .fallback) = 1632020 := by decide

/-- R27: 750 ms is rounded to 500 ms; below 20 ms is clamped; the ends of the table. -/
theorem test_grades :
    gradeMs (gradeIndex 750) = 500 ∧ gradeRounded 750 = true ∧ gradeMs (gradeIndex 19) = 20 ∧
    gradeClamped 19 = true ∧ gradeMs (gradeIndex 20) = 20 ∧ gradeRounded 20 = false ∧
    gradeMs (gradeIndex 49) = 20 ∧ gradeMs (gradeIndex 50) = 50 ∧
    gradeMs (gradeIndex 20000) = 20000 ∧ gradeMs (gradeIndex 20001) = 20000 ∧
    gradeMs (gradeIndex 65535) = 20000 := by decide

/-- R39: R = 10,000, and the second row of its timeline. -/
theorem test_stretch :
    stretched 0 10000 = 10198 ∧ stretched 1004000 1005020 = 1004000 + 1041 ∧
    stretched 1004000 1015023 = 1004000 + 11242 := by decide

/-- R90, the table of examples, in ticks. -/
theorem test_drain_limits :
    drainLimit ⟨50, 2000, 50, 30000, 5000⟩ 3 = 21500 ∧ drainLimit ⟨50, 2000, 50, 30000, 5000⟩ 12 = 26000 ∧
    drainLimit ⟨50, 2000, 50, 30000, 5000⟩ 32 = 36000 ∧
    drainLimit ⟨50, 60000, 1000, 30000, 5000⟩ 32 = 300000 ∧
    drainLimit ⟨50, 60000, 1000, 120000, 5000⟩ 32 = 920000 := by decide

/-- 00, Generations: 65,535 is followed by 1. -/
theorem test_generation_successor : succGen 0xFFFF = 1 ∧ succGen 0xFFFE = 0xFFFF ∧ succGen 0 = 1 := by decide

/-- A 16-bit saturating counter stops at 65,535. -/
theorem test_counter_saturates : satInc 0xFFFF = 0xFFFF ∧ satInc 0xFFFE = 0xFFFF ∧
    satAdd 0xFFF0 20 = 0xFFFF := by decide

/-- R164 and R152: a frame with one bit of its body changed is not intact; a class the controller
alone sends, and bay 8, fail the structure checks. -/
theorem test_frame_checks :
    frameIntact (frameBytes 3 0xFF [0, 1, 1]) = true ∧
    frameIntact ((frameBytes 3 0xFF [0, 1, 1]).set 5 0) = false ∧
    structureFault (frameBytes 2 0 [0, 0, 0, 0, 0, 0]) = some .wrongDirection ∧
    structureFault (frameBytes 6 0 []) = some .unknownClass ∧
    structureFault (frameBytes 3 0xFF [0, 1]) = some .badLength ∧
    structureFault (frameBytes 5 8 [0, 1]) = some .badSlot := by decide +kernel

/-! ### Small states -/

def openPort : Port := { Port.initial with state := .up }

/-- A lease with deadlines at ticks 1,020 and 1,500. -/
def leaseIn (st : LeaseState) : Lease :=
  { Lease.initial with
    state := st, absentCause := none, grant := some ⟨1, 3, 1500, 0⟩
    lapse := if st = .live then some 1020 else none, expiry := some 1500, basis := some .fallback }

def bayIn (st : BayState) : Bay :=
  { Bay.initial with
    state := st, recorded := some 7, present := true, input := true
    capacity := if st = .ready ∨ st = .suspect then some 100 else none
    presented := if st = .suspect then some 9 else none }

/-- Both ports UP, A's lease LIVE, B's NEVER_SEEN, every bay READY, slot 0 OWNED by A, tick 1,020. -/
def base : State :=
  { State.reset with
    ports := ⟨openPort, openPort⟩, leases := ⟨leaseIn .live, Lease.initial⟩
    time := { Timebase.initial with tick := 1020 }
    bays := Vector.replicate 8 (bayIn .ready)
    slots := putAt (Vector.replicate 8 SlotRec.initial) 0
      { SlotRec.initial with phase := .owned, owner := some .a, generation := 41 } }

def cmdOf (n : Node) (tag : Byte) (k : Kind) : Command := { node := n, tag := tag, kind := k, lba := 8, count := 4 }

def inBay (s : State) (i : Slot) (st : BayState) : State := s.setBay i (bayIn st)
def inPhase (s : State) (i : Slot) (p : Phase) : State := s.setSlot i { s.slot i with phase := p }
def tickAt (s : State) (t : Tick) : State := { s with time := { s.time with tick := t } }
def off (s : State) : State := { s with power := { s.power with powered := false } }
def withTags (s : State) (i : Slot) (ts : List TagEntry) : State :=
  s.setEngine i { s.engine i with tags := ts }
def hears (s : State) (n : Node) : State := s.setNotice n { s.notice n with on := true }

def faulted (s : State) : State := s.setStore { s.store with mode := .faulted, queue := [] }

/-- Slot 0 DRAINING in B's batch, from A; both leases LIVE. -/
def draining : State :=
  let s := (base.setSlot 0 { base.slot 0 with
    phase := .draining, batch := some .b, drainDeadline := some 1020 }).setLease .b (leaseIn .live)
  s.setBatch .b { s.batch .b with
    state := .running, number := 1, members := [⟨0, .owned, some .a, .draining, some 1, none, none⟩] }

/-- Slot 0 HANDING from A to B. -/
def handing : State :=
  base.setSlot 0 { base.slot 0 with
    phase := .handing, target := some (some .b), drainDeadline := some 1020 }

/-- Slot 0 of A CLAIMED in B's gathering batch. -/
def gathering : State :=
  let s := (base.setSlot 0 { base.slot 0 with phase := .claimed, batch := some .b }).setLease .b (leaseIn .live)
  s.setBatch .b { s.batch .b with
    state := .gathering, number := 1, gatherDeadline := some 1020
    members := [⟨0, .owned, some .a, .gathered, none, none, none⟩] }

/-- A store write in progress since tick 1,000, for slot 0. -/
def writing (s : State) (waits : Bool) (attempt : Nat) : State :=
  s.setStore { s.store with mode := .writing ⟨0, none, 42, some 7, waits⟩ attempt 1000 }

/-- A's sweep of slot 0 alone, in a state with a probe. -/
def sweeping (st : SweepState) (mode : AuditMode) (p : Option Probe) : State :=
  (hears base .a).setSweep { base.sweep with
    state := st, current := some 0, probe := p
    run := some { requester := .a, first := 0, last := 0, mode := mode, budget := 0, issued := 0,
                  pass := 0, startTick := 0 } }

/-! ### Hypotheses that are met: the step and the whole machine -/

theorem witness_StepTakesTheFrontCommand :
    ({ base with pending := [.tick, .powerFail] } : State).pending = .tick :: [.powerFail] := by decide

theorem witness_IdleStepSendsOneFrameOnEachLink :
    (base.pending = [] ∧ base.running = true) ∧ ((off base).pending = [] ∧ (off base).running = false) := by
  decide

theorem witness_EveryCommandGoesOn : Instr.tick.ofPower = false ∧ Instr.powerFail.ofPower = true := by decide

theorem witness_WhatIsClosedTakesNothing :
    ((off base).running = false ∧ Instr.tick.ofPower = false) ∧
    ((Instr.leave .b 1).sender = some .b ∧
      ((base.setPort .b Port.initial).port .b).state ≠ .up ∧
      ((base.setPort .b { Port.initial with state := .halted }).port .b).state ≠ .up) := by decide

theorem leaseIn_live_ok : (leaseIn .live).Ok :=
  ⟨by decide, by decide, by decide, by decide, by decide, by decide, fun g h => by
    obtain rfl := Option.some.inj h
    decide⟩

/-- A step from a state that meets every invariant, with a waiting command and a slot DRAINING. -/
theorem witness_StepKeepsSlotBayAndLeaseRecords :
    (∃ t, step { draining with pending := [.tick] } = .next t) ∧
    SlotsOk draining ∧ BaysOk draining ∧ (draining.lease .a).Ok ∧ (draining.lease .b).Ok := by
  refine ⟨⟨_, rfl⟩, ?_, ?_, leaseIn_live_ok, leaseIn_live_ok⟩
  · unfold SlotsOk SlotRec.Ok
    decide
  · unfold BaysOk Bay.Ok
    decide

def busy : State :=
  base.setEngine 0 { base.engine 0 with
    waiting := [cmdOf .a 1 .read], tags := [⟨0, .active (cmdOf .a 2 .write) 0⟩, ⟨3, .probe true⟩] }

theorem witness_StepKeepsEngines :
    (∃ t, step { busy with pending := [.tick] } = .next t) ∧
    ∀ i, (busy.engine i).waiting.length ≤ 16 ∧ ((busy.engine i).tags.map TagEntry.tag).Nodup ∧
      (busy.engine i).outstandingTags.Nodup ∧
      ((busy.engine i).outstanding .a ≤ 32 ∧ (busy.engine i).outstanding .b ≤ 32) ∧
      (busy.slot i).quota.get .a ≤ 32 ∧ (busy.slot i).quota.get .b ≤ 32 :=
  ⟨⟨_, rfl⟩, by decide⟩

theorem witness_StepKeepsNoticeQueues :
    (∃ t, step { (hears base .a).raise .a none .timebaseRegained with pending := [.tick] } = .next t) ∧
    (((hears base .a).raise .a none .timebaseRegained).notice .a).Ok true ∧ (base.notice .b).Ok true := by
  refine ⟨⟨_, rfl⟩, ?_⟩
  unfold NoticeQueue.Ok
  decide

/-- Slot 0 of A with a SHARE_READ window for reads of blocks 0 to 49, and a TRIP window on 8 to 8. -/
def windowed : State :=
  (base.setWindow 2 { Window.initial with active := some ⟨0, 0, 49, .shareRead, .a, 0⟩ }).setWindow 3
    { Window.initial with active := some ⟨0, 8, 8, .trip, .a, 0⟩ }

theorem witness_StepKeepsStoreWindowsPortsTiming :
    (∃ t, step { windowed with pending := [.tick] } = .next t) ∧
    (writing windowed true 3).store.Ok ∧ (windowed.window 3).Ok ∧ (windowed.window 0).Ok ∧
    (windowed.port .a).Ok ∧ (Port.initial).Ok ∧ windowed.timing.Ok ∧
    (windowed.slot 0).owner.isSome := by
  refine ⟨⟨_, rfl⟩, ⟨by decide, show 1 ≤ 3 ∧ 3 ≤ 3 by decide⟩, ⟨fun a h => ?_, by decide⟩, ⟨fun a h => ?_, by decide⟩, ?_⟩
  · obtain rfl := Option.some.inj h
    decide
  · cases h
  · unfold Port.Ok Timing.Ok
    decide

theorem witness_OnlyNamedCommandsChangeSlotRecords :
    (Instr.storeStatus .a 1).movesSlots = false ∧ ∃ t, exec (.storeStatus .a 1) base = .next t :=
  ⟨by decide, _, rfl⟩

theorem witness_GradeIsTheLargestNotAbove : 20 ≤ 20 ∧ 19 < 20 ∧ 20000 < 20001 ∧
    gradeRounded 21 = true ∧ gradeRounded 20000 = false := by decide

theorem witness_DrainLimitsAndSpansStayInRange :
    (Timing.initial.Ok ∧ Timing.Ok ⟨0, 100, 0, 1000, 1000⟩ ∧ Timing.Ok ⟨1000, 60000, 1000, 120000, 30000⟩) ∧
    (0 ≤ 0 ∧ 0 ≤ 32) ∧ (1 ≤ 1 ∧ 8 ≤ 8) := by
  unfold Timing.Ok
  decide

/-! ### Frames on the node link -/

theorem witness_ArrivingFramesAreChecked :
    base.Takes .a ∧ (base.setPort .b { Port.initial with state := .halted }).running = true ∧
    frameIntact [0, 0] = false ∧
    (frameIntact (frameBytes 9 0 []) = true ∧ structureFault (frameBytes 9 0 []) = some .unknownClass) ∧
    (frameIntact (frameBytes 3 0xFF [0, 1, 0x99]) = true ∧
      structureFault (frameBytes 3 0xFF [0, 1, 0x99]) = none ∧
      (frameBytes 3 0xFF [0, 1, 0x99]).getD 0 0 = 3 ∧
      requestIn .a (frameBytes 3 0xFF [0, 1, 0x99]) = none) ∧
    requestIn .a (frameBytes 3 0xFF [0, 1, 0x20, 8]) = none := by
  unfold State.Takes
  decide +kernel

theorem witness_PortsReopenTrainAndClose :
    (base.running = true ∧ (base.port .a).state = .up) ∧
    ((base.setPort .b { Port.initial with state := .halted }).port .b).state = .halted ∧
    ((base.setPort .b Port.initial).port .b).state = .down ∧
    ((base.port .a).state ≠ .down ∧ base.sweep.runsFor .a = false ∧ (base.lease .a).fastExpiry = false) ∧
    (let s := base.setLease .a { base.lease .a with fastExpiry := true }
     (s.lease .a).fastExpiry = true ∧ s.live .a = true ∧ (s.batch .a).state ≠ .gathering ∧
       s.live .b = false) := by decide

theorem witness_StatusRequestsReport : base.Takes .a ∧ base.Takes .b ∧ 1 < (2 : Byte).toNat := by
  unfold State.Takes
  decide

theorem witness_ReadSummaryReportsAndClears : base.Takes .b ∧ base.live .b = false := by
  unfold State.Takes
  decide

/-! ### Notices -/

/-- A's queue with `k` notices. -/
def queued (k : Nat) : State :=
  base.setNotice .a { base.notice .a with
    on := true, queue := List.replicate k { slot := none, tick := 0, body := .timebaseRegained } }

theorem witness_RaisedNoticeIsQueuedOrDropped :
    (base.notice .a).on = false ∧
    ((base.setNotice .a { base.notice .a with on := true, mask := 0x20000 }).notice .a).mask.getLsbD
      NoticeBody.timebaseRegained.code = true ∧
    (((queued 31).notice .a).on = true ∧ ((queued 31).notice .a).mask.getLsbD 0x11 = false ∧
      ((queued 31).notice .a).queue.length < 32) ∧ 32 ≤ ((queued 32).notice .a).queue.length := by decide

/-- A's STEPPED sweep of slots 0 to 1, PAUSED_FULL with the result of slot 0 held and 32 notices queued. -/
def full : State :=
  (queued 32).setSweep { base.sweep with
    state := .pausedFull, current := some 0
    holder := some { slot := 0, outcome := .absent, owner := none, generation := 0, phase := .unowned
                     bayState := .empty, fingerprint := none, driveStatus := none, tick := 0 }
    run := some { requester := .a, first := 0, last := 1, mode := .stepped, budget := 0, issued := 0,
                  pass := 0, startTick := 0 } }

theorem witness_NoticesAreFetchedAndSet :
    (base.Takes .a ∧ (queued 8).Takes .a) ∧ base.sweep.state ≠ .pausedFull ∧
    ((queued 9).notice .a).on = true ∧ (base.notice .a).on = false ∧ base.sweep.runsFor .a = false ∧
    (full.Takes .a ∧ full.sweep.state = .pausedFull ∧ (∀ w ∈ full.sweep.run, w.requester = .a ∧
      w.mode = .stepped ∧ 0 ≠ w.last ∧ w.budget = 0) ∧ full.sweep.run.isSome ∧
      full.sweep.holder.isSome ∧ full.sweep.current = some 0 ∧ (full.notice .a).queue ≠ []) ∧
    ((full.notice .a).on = true ∧ full.sweep.state ≠ .idle) ∧ 1 < (2 : Byte).toNat := by
  unfold State.Takes
  decide

/-! ### Leases and the timebase -/

theorem witness_HeartbeatMakesTheLeaseLive :
    base.Takes .a ∧ ((0 : BitVec 16) = 0 ∨ 1 < (0 : Byte).toNat) ∧ ((5 : BitVec 16) = 0 ∨ 1 < (2 : Byte).toNat) ∧
    ((1 : BitVec 16) ≠ 0 ∧ (1 : Byte).toNat ≤ 1 ∧ (base.batch .b).state ≠ .gathering) := by
  unfold State.Takes
  decide

/-- The gathering batch with slot 1 beside slot 0, which was UNOWNED: it outlives A's return. -/
def gatheringOn : State :=
  let s := gathering.setSlot 1 { SlotRec.initial with phase := .claimed, batch := some .b }
  s.setBatch .b { s.batch .b with
    members := (s.batch .b).members ++ [⟨1, .unowned, none, .gathered, none, none, none⟩] }

theorem witness_ReturnedOwnerLeavesTheGatheringBatch :
    (gathering.Takes .a ∧ (1 : BitVec 16) ≠ 0 ∧ (1 : Byte).toNat ≤ 1) ∧
    ((gathering.batch .b).state = .gathering ∧ ((gathering.batch .b).members.map Member.slot).Nodup ∧
      (∀ m ∈ (gathering.batch .b).members, m.status = .gathered ∧ m.oldOwner = some .a ∧
        (gathering.slot m.slot).phase = .claimed ∧ (gathering.slot m.slot).batch = some .b) ∧
      ∀ i, (gathering.slot i).autoPending = none) ∧
    (gatheringOn.Takes .a ∧ (gatheringOn.batch .b).state = .gathering ∧
      ((gatheringOn.batch .b).members.map Member.slot).Nodup ∧
      (∀ m ∈ (gatheringOn.batch .b).members, m.status = .gathered → m.oldOwner = some .a →
        (gatheringOn.slot m.slot).phase = .claimed ∧ (gatheringOn.slot m.slot).batch = some .b) ∧
      (∃ m ∈ (gatheringOn.batch .b).members, m.status = .gathered ∧ m.oldOwner = some .a) ∧
      ∃ m ∈ (gatheringOn.batch .b).members, m.oldOwner ≠ some .a ∧ m.status.isFinal = false) := by
  unfold State.Takes
  decide

theorem witness_LeaveLapseAndExpiryTellThePartner :
    (base.Takes .b ∧ base.live .b = false) ∧
    (let s := base.setLease .a (leaseIn .expired)
     s.Takes .a ∧ s.live .a = false ∧ (s.lease .a).state = .expired ∧ s.time.grace = true) ∧
    (base.Takes .a ∧ base.live .a = true ∧ (base.batch .a).state ≠ .gathering ∧
      base.sweep.runsFor .a = false ∧ base.time.grace = true) ∧
    ((base.lease .a).grant = some ⟨1, 3, 1500, 0⟩ ∧ (base.lease .a).expiry = some 1500 ∧
      (base.lease .a).state = .live ∧ (base.lease .a).lapse = some base.now) ∧
    (((tickAt base 1019).lease .a).lapse ≠ some (tickAt base 1019).now) ∧
    ((tickAt base 1500).live .a = true ∧ (1500 : Tick) = (tickAt base 1500).now ∧
      (tickAt base 1500).live .b = false) ∧ (1500 : Tick) ≠ (tickAt base 1499).now := by
  unfold State.Takes
  decide

/-- A's lease expires at this tick while B's is LIVE. -/
def expiring : State := tickAt (base.setLease .b (leaseIn .live)) 1500

/-- The grace over, or A's lease ABSENT at the tick that ends it, in a state with B's lease LIVE. -/
def graceOver (s : State) : State := { s with time := { s.time with grace := false } }
def endingGrace (s : State) : State := tickAt (s.setLease .a Lease.initial) 300000

theorem witness_GoneOwnersAutoSlotsAreClaimed :
    (expiring.running = true ∧ expiring.live .a = true ∧ (expiring.lease .a).expiry = some expiring.now ∧
      expiring.live Node.a.partner = true ∧ (expiring.batch .a).state ≠ .gathering ∧
      expiring.sweep.runsFor .a = false ∧ (expiring.batch .b).state = .noBatch ∧
      expiring.timing.gatherWindow ≠ 0 ∧ (expiring.slot 0).phase = .owned ∧
      (expiring.slot 0).owner = some .a ∧ (expiring.slot 0).policy = .auto) ∧
    (let s := graceOver expiring
     s.Takes .a ∧ s.live .a = true ∧ s.time.grace = false ∧ s.live Node.a.partner = true) ∧
    (let s := endingGrace expiring
     s.running = true ∧ s.time.grace = true ∧ s.now = 300000 ∧ (s.lease .a).state = .absent ∧
       s.live .a = false ∧ s.live Node.a.partner = true ∧ (s.slot 0).owner = some .a) ∧
    (let s := tickAt (gathering.setSlot 1 (expiring.slot 0)) 1500
     s.live .a = true ∧ (s.lease .a).expiry = some s.now ∧ s.live .b = true ∧
       (s.batch .b).state = .gathering ∧ (s.slot 1).phase = .owned ∧ (s.slot 1).owner = some .a) ∧
    (let s := tickAt (draining.setSlot 1 (expiring.slot 0)) 1500
     s.live .a = true ∧ (s.lease .a).expiry = some s.now ∧ (s.batch .b).state = .running ∧
       (s.slot 1).phase = .owned ∧ (s.slot 1).owner = some .a ∧ (s.slot 1).policy = .auto) := by
  unfold State.Takes
  decide

/-- The source counts toward the reference, or has it, or has had it. -/
def timed (src : Source) (measured : Nat) (qualified : Bool) : State :=
  { base with time := { base.time with source := src, measured := measured, qualified := qualified } }

theorem witness_ReferenceLossStretchesLeases :
    let s := (timed .reference 0 true).setLease .a { base.lease .a with basis := some .reference }
    s.running = true ∧ s.time.source = .reference ∧ s.live .a = true ∧
      (s.lease .a).basis = some .reference ∧ s.live .b = false := by decide

theorem witness_TickReferenceAndGraceEnd :
    ((timed .fallback 10000 false).running = true ∧ (timed .fallback 10000 false).time.measured = 10000) ∧
    (timed .fallback 10000 true).time.qualified = true ∧ (timed .fallback 9999 true).time.measured ≠ 10000 ∧
    (timed .reference 0 true).time.source = .reference ∧
    ((tickAt base 300000).running = true ∧ (tickAt base 300000).time.grace = true ∧
      (tickAt base 300000).time.tick = 300000) ∧
    (let s := (tickAt base 300000).setLease .b (leaseIn .expired)
     (s.lease .a).state ≠ .absent ∧ (s.lease .b).state ≠ .absent) ∧
    (let s := (tickAt base 300000).setLease .a Lease.initial
     ((s.lease .a).state = .absent ∧ (s.lease .a).absentCause = some .neverSeen) ∧
       (s.lease .b).state = .absent ∧ (s.lease .b).absentCause = some .neverSeen) := by decide

/-! ### Commands and data -/

theorem witness_OwnerCommandIsDispatched :
    (base.Takes .a ∧ (base.bay 0).state = .ready ∧ (base.bay 0).capacity = some 100 ∧ base.live .a = true ∧
      (base.slot 0).owner = some .a ∧ (base.slot 0).phase = .owned ∧ tripWindow base 0 96 4 = none ∧
      (4 : BitVec 16) ≠ 0 ∧ (96 : Lba).toNat + (4 : BitVec 16).toNat ≤ (100 : Lba).toNat ∧
      tagOutstanding (base.engine 0) .a 1 = false ∧
      (base.engine 0).outstanding .a < (base.slot 0).quota.get .a ∧
      (base.engine 0).waiting.length < 16 ∧ base.Quiet 0) ∧
    lowestFree (base.engine 0).tags = some 0 ∧
    (let s := base.setEngine 0 { base.engine 0 with
       tags := allTags.map (fun k => ⟨k, .probe false⟩), waiting := [cmdOf .a 2 .read] }
     lowestFree (s.engine 0).tags = none ∧ (s.engine 0).waiting.length < 16 ∧
       tagOutstanding (s.engine 0) .a 1 = false ∧
       (s.engine 0).outstanding .a < (s.slot 0).quota.get .a) := by
  unfold State.Takes State.Quiet
  decide

/-- Slot 0 with `k` commands of A waiting at the bay. -/
def waitingCmds (k : Nat) : State :=
  base.setEngine 0 { base.engine 0 with waiting := (List.range k).map (fun j => cmdOf .a (BitVec.ofNat 8 j) .read) }

theorem witness_AdmissionChecksRefuseInOrder :
    (base.Takes .a ∧ (base.bay 0).state = .ready) ∧
    (((inBay base 0 .empty).bay 0).state = .empty ∧ ((inBay base 0 .bringup).bay 0).state = .bringup ∧
      ((inBay base 0 .resetting).bay 0).state = .resetting ∧ ((inBay base 0 .held).bay 0).state = .held ∧
      ((inBay base 0 .failed).bay 0).state = .failed ∧ ((inBay base 0 .suspect).bay 0).state = .suspect) ∧
    base.live .b = false ∧
    (draining.live .b = true ∧ (draining.slot 0).phase = .draining ∧ (draining.slot 0).owner = some .a ∧
      (draining.slot 0).owner ≠ some .b) ∧ (handing.slot 0).phase = .handing ∧
    ((base.slot 1).phase = .unowned ∧ (base.slot 1).owner ≠ some .a ∧
      shareWindow base 1 (some .read) 8 4 = none) ∧
    (let s := windowed.setLease .b (leaseIn .live)
     s.Takes .b ∧ s.live .b = true ∧ (s.slot 0).owner ≠ some .b ∧
       shareWindow s 0 (kindOf 1) 46 4 = some 2 ∧ (42 : Gen) ≠ 0 ∧ (42 : Gen) ≠ (s.slot 0).generation) ∧
    ((base.slot 0).owner = some .a ∧ tripWindow base 0 8 4 = none ∧ (42 : Gen) ≠ (base.slot 0).generation) ∧
    (base.Takes .a ∧ (base.bay 0).capacity = some 100 ∧ base.live .a = true ∧ (base.slot 0).phase = .owned ∧
      (base.slot 0).owner = some .a) ∧ kindOf 5 = none ∧ kindOf 0 = none ∧
    (kindOf 3 = some .flush ∧ (1 : BitVec 16) ≠ 0) ∧
    ((kindOf 1).isSome ∧ (100 : Lba).toNat < (97 : Lba).toNat + (4 : BitVec 16).toNat) ∧
    tagOutstanding ((waitingCmds 1).engine 0) .a 0 = true ∧
    (tagOutstanding ((waitingCmds 16).engine 0) .a 16 = false ∧
      ((waitingCmds 16).slot 0).quota.get .a ≤ ((waitingCmds 16).engine 0).outstanding .a) ∧
    (let s := (waitingCmds 16).setSlot 0 { base.slot 0 with quota := ⟨17, 0⟩ }
     (s.engine 0).outstanding .a < (s.slot 0).quota.get .a ∧ 16 ≤ (s.engine 0).waiting.length) := by
  unfold State.Takes
  decide

theorem witness_AdmittedCommandHadTheRight :
    ∃ t, exec (.cmd .a 0 1 1 41 8 4) base = .next t ∧ t.engine 0 ≠ base.engine 0 :=
  ⟨_, rfl, by decide⟩

/-- Slot 0 of A shared with B for reads and writes of blocks 0 to 49, no tag FREE and 15 commands waiting. -/
def shared : State :=
  ((base.setWindow 1 { Window.initial with active := some ⟨0, 0, 49, .shareRw, .a, 0⟩ }).setLease .b
    (leaseIn .live)).setEngine 0 { base.engine 0 with
      waiting := (List.range 15).map (fun j => cmdOf .a (BitVec.ofNat 8 j) .read)
      tags := allTags.map (fun k => ⟨k, .probe false⟩) }

theorem witness_WindowsTrapAndShare :
    (windowed.Takes .a ∧ (windowed.bay 0).state = .ready ∧ windowed.live .a = true ∧
      (windowed.slot 0).phase = .owned ∧ (windowed.slot 0).owner = some .a ∧
      tripWindow windowed 0 5 4 = some 3 ∧ tripWindow windowed 0 4 4 = none) ∧
    (let s := windowed.setLease .b (leaseIn .lapsing)
     s.Takes .b ∧ s.live .b = true ∧ (s.slot 0).owner ≠ some .b ∧ (s.bay 0).capacity = some 100 ∧
       shareWindow s 0 (some .read) 46 4 = some 2 ∧ shareWindow s 0 (some .read) 47 4 = none ∧
       tagOutstanding (s.engine 0) .b 1 = false ∧
       (s.engine 0).outstanding .b < (s.slot 0).quota.get .b ∧ s.Quiet 0 ∧
       lowestFree (s.engine 0).tags = some 0 ∧
       (∀ v, v < 2 → (s.window v).active = none) ∧ (s.window 2).active = some ⟨0, 0, 49, .shareRead, .a, 0⟩) ∧
    (let s := shared
     s.Takes .b ∧ (s.bay 0).state = .ready ∧ s.live .b = true ∧ (s.slot 0).phase = .owned ∧
       (s.slot 0).owner ≠ some .b ∧ (∀ v, v < 1 → (s.window v).active = none) ∧
       (s.window 1).active = some ⟨0, 0, 49, .shareRw, .a, 0⟩ ∧ (s.bay 0).capacity = some 100 ∧
       tagOutstanding (s.engine 0) .b 1 = false ∧
       (s.engine 0).outstanding .b < (s.slot 0).quota.get .b ∧ (s.engine 0).waiting.length < 16 ∧
       lowestFree (s.engine 0).tags = none) := by
  unfold State.Takes State.Quiet
  decide

theorem witness_DataIsRelayedOrDropped :
    (busy.Takes .a ∧ writeTag (busy.engine 0) .a 2 = some 0 ∧ writeTag (busy.engine 0) .a 1 = none) ∧
    ((busy.engine 0).entry 0 = some ⟨0, .active (cmdOf .a 2 .write) 0⟩ ∧ (busy.port .a).state = .up) ∧
    ((busy.setPort .a Port.initial).port .a).state ≠ .up ∧
    (busy.engine 0).entry 3 = some ⟨3, .probe true⟩ ∧ (busy.engine 0).entry 32 = none := by
  unfold State.Takes
  decide

/-- A report of slot 0 with one PENDING entry, of node tag 2. -/
def pendingReport : Report :=
  { oldOwner := .a, newOwner := .b, generationBefore := 41, fenceTick := 0, closing := none, resetUsed := none
    replacedUnread := false, readToEnd := false, entries := [⟨2, .write, 8, 4, some 0, .pending⟩] }

theorem witness_CompletionsFreeTheirTag :
    (let s := withTags base 0 [⟨0, .active (cmdOf .a 2 .write) 0⟩]
     s.running = true ∧ s.Quiet 0 ∧ (s.slot 0).phase ≠ .handing ∧
       (s.engine 0).entry 0 = some ⟨0, .active (cmdOf .a 2 .write) 0⟩ ∧ (s.port .a).state = .up ∧
       ((s.setPort .a Port.initial).port .a).state ≠ .up ∧ (s.engine 0).entry 1 = none) ∧
    (let s := (withTags draining 0 [⟨0, .orphaned (cmdOf .a 1 .read) 0⟩,
       ⟨31, .orphaned (cmdOf .a 2 .write) 0⟩]).setReport 0 (some pendingReport)
     s.running = true ∧ s.Quiet 0 ∧ (s.slot 0).phase = .draining ∧
       (∃ e ∈ (s.engine 0).tags, e.tag ≠ 31 ∧ e.isOrphan = true) ∧
       (s.engine 0).entry 31 = some ⟨31, .orphaned (cmdOf .a 2 .write) 0⟩ ∧
       s.report 0 = some pendingReport) := by
  unfold State.Quiet
  decide

/-- Bay 0 with tag 5 in a role beside a probe under tag 6, and a command of B waiting. -/
def ending (s : State) (role : Role) : State :=
  (withTags s 0 [⟨5, role⟩, ⟨6, .probe false⟩]).setEngine 0 { s.engine 0 with
    waiting := [cmdOf .b 1 .read], tags := [⟨5, role⟩, ⟨6, .probe false⟩] }

theorem witness_LastCompletionCommitsTheSlot :
    (let s := ending draining (.orphaned (cmdOf .a 2 .write) 0)
     s.running = true ∧ s.store = base.store ∧ (s.slot 0).phase = .draining ∧ (s.slot 0).batch = some .b ∧
       (s.engine 0).entry 5 = some ⟨5, .orphaned (cmdOf .a 2 .write) 0⟩ ∧
       (∀ x ∈ (s.engine 0).tags, x.tag ≠ 5 → x.isOrphan = false) ∧ (s.bay 0).state ≠ .resetting ∧
       (s.engine 0).probeRequest = false ∧ (s.bay 0).state = .ready) ∧
    ((inBay draining 0 .failed).bay 0).state ≠ .resetting ∧ ((inBay draining 0 .failed).bay 0).state ≠ .ready ∧
    (let s := ending handing (.active (cmdOf .a 2 .write) 0)
     s.store = base.store ∧ (s.slot 0).phase = .handing ∧ (s.slot 0).target = some (some .b) ∧
       (s.slot 0).owner = some (cmdOf .a 2 .write).node ∧
       (s.engine 0).entry 5 = some ⟨5, .active (cmdOf .a 2 .write) 0⟩ ∧
       (∀ x ∈ (s.engine 0).tags, x.tag ≠ 5 → x.activeOf .a = false) ∧
       (∀ w ∈ (s.engine 0).waiting, w.node ≠ .a) ∧ (s.engine 0).waiting ≠ []) ∧
    (let s := (ending draining (.orphaned (cmdOf .a 2 .write) 0)).setReport 0 (some pendingReport)
     s.report 0 = some pendingReport ∧ (pendingReport.entries.map ReportEntry.tag) = [2]) ∧
    ((handing.port .a).state = .up ∧ ((handing.setPort .a Port.initial).port .a).state ≠ .up) ∧
    ∃ st, base.store.Accepts (handing.commitUpdate 0 (some .b)) 1020 st :=
  ⟨by decide, by decide, by decide, by decide, by decide, by decide, _, .inl ⟨by decide, by decide, rfl⟩⟩

/-- Bay 0 with all 32 tags in use, tag 5 in a role, and one command waiting; a probe may be requested. -/
def crowded (s : State) (role : Role) (requested : Bool) : State :=
  s.setEngine 0 { s.engine 0 with
    waiting := [cmdOf .a 1 .read], probeRequest := requested
    tags := ⟨5, role⟩ :: (allTags.filter (fun k => decide (k ≠ 5))).map (fun k => ⟨k, .orphaned (cmdOf .a 9 .write) 0⟩) }

theorem witness_FreedTagsAndReadyBaysServeTheWaiting :
    (∀ role ∈ [Role.active (cmdOf .a 2 .write) 0, .orphaned (cmdOf .a 3 .read) 0, .probe false],
      ∀ p ∈ [true, false],
        let s := crowded base role p
        s.running = true ∧ (s.engine 0).entry 5 = some ⟨5, role⟩ ∧ (s.slot 0).phase ≠ .handing ∧
          (∃ e ∈ (s.engine 0).tags, e.tag ≠ 5 ∧ e.isOrphan = true) ∧ (s.bay 0).state = .ready ∧
          (s.engine 0).probeRequest = p ∧ lowestFree (s.engine 0).tags = none ∧
          freeTags ((s.engine 0).tags.filter (fun x => decide (x.tag ≠ 5))) = [5]) ∧
    ((inBay (crowded base (.probe false) true) 0 .suspect).bay 0).state = .suspect ∧
    (let s := inBay (crowded base (.probe false) false) 0 .failed
     (s.bay 0).state ≠ .ready ∧ (s.engine 0).probeRequest = false) ∧
    ((inBay base 0 .held).bay 0).state ≠ .suspect ∧
    (let s := (base.setBay 0 { bayIn .resetting with awaits := .identity }).setEngine 0
       { base.engine 0 with waiting := [cmdOf .a 1 .read] }
     (s.bay 0).awaits = .identity ∧ (1 : Lba) ≠ 0 ∧ (s.bay 0).recorded = some 7 ∧
       (s.engine 0).probeRequest = false ∧ s.Still 0 ∧ (s.engine 0).waiting ≠ [] ∧
       (inPhase s 0 .handing).slot 0 = { s.slot 0 with phase := .handing } ∧
       (s.engine 0).outstanding .a ≠ 0) := by
  unfold State.Still
  decide

/-! ### Bays and drive links -/

/-- Bay 1 with a debounce that completes now. -/
def settling (present : Bool) (st : BayState) : State :=
  base.setBay 1 { bayIn st with input := present, present := !present, debounce := some 1020 }

theorem witness_RemovalEmptiesTheBay :
    (settling false .ready).running = true ∧ ((settling false .ready).bay 1).debounce = some base.now ∧
    ((settling false .ready).bay 1).input = false ∧ ((settling false .ready).bay 1).state ≠ .empty ∧
    (settling false .ready).Still 1 ∧ (settling false .ready).probing 1 = false ∧
    (((hears base .b).notice .b).on = true ∧ ((hears base .b).notice .b).mask = 0 ∧
      ((hears base .b).notice .b).queue.length < 32) := by
  unfold State.Still
  decide

/-- Bay 0 in BRINGUP, waiting for ready or for the identity. -/
def bringing (w : Awaits) (recorded : Option Fingerprint) (s : State) : State :=
  s.setBay 0 { bayIn .bringup with awaits := w, bringupDeadline := some 1020, recorded := recorded }

theorem witness_PresenceStartsBringUpAndIdentityEndsIt :
    (base.running = true ∧ (base.bay 1).input ≠ false) ∧
    ((settling true .empty).running = true ∧ ((settling true .empty).bay 1).debounce = some base.now ∧
      ((settling true .empty).bay 1).input = true ∧ ((settling true .empty).bay 1).state = .empty) ∧
    ((bringing .readySignal none base).running = true ∧
      ((bringing .readySignal none base).bay 0).awaits = .readySignal) ∧
    (((bringing .identity none base).bay 0).awaits = .identity ∧
      ((1 : BitVec 16) ≠ 0 ∨ (5 : Lba) = 0) ∧ ((0 : BitVec 16) ≠ 0 ∨ (0 : Lba) = 0)) ∧
    (let s := bringing .identity (some 7) base
     (s.bay 0).awaits = .identity ∧ (1 : Lba) ≠ 0 ∧ (s.bay 0).state = .bringup ∧ s.Still 0 ∧ s.Quiet 0 ∧
       (s.bay 0).recorded = some 7) := by
  unfold State.Still State.Quiet
  decide

/-- Bay 0's link reset, waiting for the identity, with a command of A waiting. -/
def identifying (recorded : Option Fingerprint) (s : State) : State :=
  (s.setBay 0 { bayIn .resetting with
    awaits := .identity, resetDeadline := some 1020, resetCause := some .linkLoss, recorded := recorded }).setEngine
    0 { s.engine 0 with waiting := [cmdOf .a 1 .read] }

theorem witness_ForeignDriveIsSuspect :
    (let s := bringing .identity (some 7) base
     s.running = true ∧ (s.bay 0).awaits = .identity ∧ (1 : Lba) ≠ 0 ∧ (s.bay 0).state = .bringup ∧
       s.Still 0 ∧ (s.engine 0).probeRequest = false ∧ (s.bay 0).recorded = some 7 ∧
       (7 : Fingerprint) ≠ 8 ∧ (s.slot 0).owner.isSome) ∧
    (let s := identifying (some 7) base
     s.running = true ∧ (s.bay 0).awaits = .identity ∧ (s.bay 0).state = .resetting ∧ s.Still 0 ∧
       (s.engine 0).probeRequest = false ∧ (s.bay 0).recorded = some 7 ∧ (s.slot 0).owner.isSome) ∧
    (let s := identifying (some 7) (base.setSlot 0 SlotRec.initial)
     (s.bay 0).recorded ≠ some 8 ∧ (s.slot 0).owner = none) ∧
    (let s := identifying none (faulted base)
     (s.bay 0).recorded = none ∧ (s.slot 0).owner.isSome ∧ s.store.mode = .faulted) ∧
    (let s := bringing .identity none base
     (s.bay 0).recorded = none ∧ (s.slot 0).owner.isSome ∧ s.store.mode = .ready ∧ s.store.queue = []) := by
  unfold State.Still
  decide

theorem witness_LinkResetEndsTheTags :
    busy.running = true ∧ (busy.bay 0).state = .ready ∧ (busy.slot 0).phase ≠ .handing ∧
    busy.probing 0 = false ∧
    busy.Takes .a ∧ busy.live .a = true ∧ (busy.slot 0).phase = .owned ∧ (busy.slot 0).owner = some .a ∧
    (let s := draining.setReport 0 (some pendingReport)
     s.running = true ∧ (s.bay 0).state = .ready ∧ (s.slot 0).phase = .draining ∧ s.probing 0 = false ∧
       s.report 0 = some pendingReport) := by
  unfold State.Takes
  decide

theorem witness_LinkLossRefusalsAndLimits :
    (base.running = true ∧ ((inBay base 0 .bringup).bay 0).state = .bringup ∧
      ((inBay base 0 .resetting).bay 0).state = .resetting ∧ ((inBay base 0 .held).bay 0).state = .held ∧
      ((inBay base 0 .failed).bay 0).state = .failed ∧ ((inBay base 0 .empty).bay 0).state = .empty) ∧
    (base.Takes .b ∧ base.live .b = false) ∧
    (base.Takes .a ∧ base.live .a = true ∧ (base.slot 1).owner ≠ some .a ∧ (base.slot 1).phase ≠ .draining) ∧
    (let s := inPhase base 0 .claimed
     (s.slot 0).owner = some .a ∧ (s.slot 0).phase ≠ .owned ∧ (s.slot 0).phase ≠ .handing ∧
       (s.slot 0).phase ≠ .draining) ∧
    (draining.Takes .a ∧ draining.live .a = true ∧ (draining.slot 0).owner = some .a ∧
      (draining.slot 0).phase ≠ .owned ∧ (draining.slot 0).phase ≠ .handing) ∧
    (draining.Takes .b ∧ draining.live .b = true ∧ (draining.slot 0).owner ≠ some .b ∧
      (draining.slot 0).phase = .draining ∧ (draining.slot 0).batch = some .b ∧
      ((inBay draining 0 .resetting).bay 0).state = .resetting) ∧
    (((bringing .identity none base).bay 0).state = .bringup ∧
      ((bringing .identity none base).bay 0).bringupDeadline = some base.now) ∧
    (let s := base.setBay 0 { bayIn .resetting with resetDeadline := some 1020, resetCause := some .linkLoss }
     (s.bay 0).state = .resetting ∧ (s.bay 0).resetDeadline = some s.now ∧ s.Still 0) := by
  unfold State.Takes State.Still
  decide

/-- Bay 0 with the removal of its drive due now, or with the limit of its link reset. -/
def leaving (s : State) : State :=
  s.setBay 0 { bayIn .ready with input := false, debounce := some 1020 }
def limited (s : State) : State :=
  s.setBay 0 { bayIn .resetting with resetDeadline := some 1020, resetCause := some .linkLoss }

theorem witness_RemovalAndFailureCommitTheSlot :
    (draining.running = true ∧ draining.store.mode = .ready ∧ draining.store.queue = [] ∧
      draining.probing 0 = false ∧ (draining.slot 0).phase = .draining ∧
      (draining.slot 0).batch = some .b) ∧
    ((handing.slot 0).phase = .handing ∧ (handing.slot 0).owner = some .a ∧
      (handing.slot 0).target = some (some .b) ∧ handing.store.mode = .ready ∧ handing.probing 0 = false ∧
      (handing.bay 0).state = .ready ∧
      (handing.engine 0).waiting.filter (fun c => decide (c.node = .a)) = []) ∧
    (((leaving draining).bay 0).debounce = some draining.now ∧ ((leaving draining).bay 0).input = false ∧
      ((leaving draining).bay 0).state ≠ .empty ∧ ((leaving draining).slot 0).phase = .draining) ∧
    (((limited handing).bay 0).state = .resetting ∧
      ((limited handing).bay 0).resetDeadline = some handing.now ∧ ((limited handing).engine 0).tags = [] ∧
      ((limited handing).slot 0).phase = .handing) := by decide

/-- Slot 0 of A with A gone and B live: B may bring its bay up. -/
def aGone : State := (base.setLease .a (leaseIn .expired)).setLease .b (leaseIn .live)

theorem witness_HoldUnholdAndClearFault :
    (base.Takes .a ∧ base.live .a = true) ∧ (base.Takes .b ∧ base.live .b = false) ∧
    ((draining.slot 0).phase ≠ .unowned ∧ (draining.slot 0).phase ≠ .owned ∧ draining.Takes .a) ∧
    (aGone.Takes .b ∧ aGone.live .b = true ∧ (aGone.slot 0).phase = .owned ∧ (aGone.slot 0).owner ≠ some .b ∧
      (aGone.slot 0).owner = some Node.b.partner ∧ aGone.gone Node.b.partner = true) ∧
    ((base.slot 1).phase = .unowned ∧ (base.bay 1).state = .ready ∧ (base.engine 1).busy = false) ∧
    ((inBay base 0 .held).bay 0).state ≠ .ready ∧ (busy.engine 0).busy = true ∧
    ((inBay base 0 .held).bay 0).state = .held ∧ ((inBay base 0 .failed).bay 0).state = .failed ∧
    (let s := base.setLease .b (leaseIn .live)
     s.live .b = true ∧ (s.slot 0).owner = some .a ∧ s.gone .a = false) := by
  unfold State.Takes
  decide

/-- Bay 0's store write in progress, with updates waiting. -/
def storing (q : List Update) : State :=
  base.setStore { base.store with mode := .writing ⟨0, none, 42, some 7, false⟩ 1 1000, queue := q }

/-- The three ways in which a store takes an update: at once, at the tail, in a waiting one's place. -/
theorem accepts_of_ready (u : Update) :
    base.store.Accepts u 1020 { base.store with mode := .writing u 1 1020 } :=
  .inl ⟨by decide, by decide, rfl⟩

theorem accepts_at_the_tail (u v : Update) (h : v.slot ≠ u.slot) :
    (storing [v]).store.Accepts u 1020 { (storing [v]).store with queue := [v, u] } :=
  .inr ⟨⟨_, _, _, rfl⟩, .inl ⟨fun _ hw => List.mem_singleton.mp hw ▸ h, rfl⟩⟩

theorem accepts_in_place (u v : Update) (h : v.slot = u.slot) :
    (storing [v]).store.Accepts u 1020 { (storing [v]).store with
      queue := [{ u with commitWaits := u.commitWaits || v.commitWaits }] } :=
  .inr ⟨⟨_, _, _, rfl⟩, .inr ⟨[], v, [], rfl, by simp, h, rfl⟩⟩

theorem witness_AdoptRecordsThePresentedDrive :
    (base.Takes .b ∧ base.live .b = false) ∧ (base.Takes .a ∧ base.live .a = true) ∧
    (base.slot 1).owner ≠ some .a ∧ ((gathering.slot 0).owner = some .a ∧ (gathering.slot 0).phase ≠ .owned ∧
      (gathering.slot 0).phase ≠ .handing) ∧ (base.bay 0).state ≠ .suspect ∧
    (∀ st : Store, let s := inBay (base.setStore st) 0 .suspect
     s.Takes .a ∧ s.live .a = true ∧ (s.slot 0).owner = some .a ∧ (s.slot 0).phase = .owned ∧
       (s.bay 0).state = .suspect ∧ (s.bay 0).presented = some 9 ∧ s.Quiet 0 ∧ s.store = st) := by
  unfold State.Takes State.Quiet
  exact ⟨by decide, by decide, by decide, by decide, by decide,
    fun _ => ⟨⟨rfl, rfl⟩, rfl, rfl, rfl, rfl, rfl, ⟨rfl, rfl⟩, rfl⟩⟩

/-! ### Slot records -/

theorem witness_SetSlotAndSetTiming :
    (base.Takes .a ∧ base.live .a = true ∧ base.Takes .b ∧ base.live .b = false) ∧
    (1 < (2 : Byte).toNat ∧ (1 : Byte).toNat ≤ 1) ∧ (gathering.slot 0).phase = .claimed ∧
    (let s := base.setLease .b (leaseIn .live)
     (s.slot 0).phase = .owned ∧ (s.slot 0).owner ≠ some .b ∧ s.live .b = true) ∧
    (base.slot 1).phase = .unowned ∧ ((handing.slot 0).phase = .handing ∧ (handing.slot 0).owner = some .a) := by
  unfold State.Takes
  decide

theorem witness_ClaimFreeBeginsTheCommit :
    (base.Takes .a ∧ base.live .a = true ∧ base.Takes .b ∧ base.live .b = false) ∧
    (gathering.live .a = true ∧ (gathering.slot 0).phase = .claimed ∧
      (gathering.slot 0).batch = some Node.a.partner ∧ (gathering.slot 0).batch ≠ some Node.b.partner) ∧
    (let s := base.setSlot 0 { base.slot 0 with
       phase := .committing, owner := some .b, target := some (some .b), path := some .takeover }
     (s.slot 0).phase = .committing ∧ (s.slot 0).path = some .takeover ∧
       (s.slot 0).target = some (some Node.a.partner)) ∧ (base.slot 0).phase = .owned ∧
    ((base.slot 1).phase = .unowned ∧ ((inBay base 1 .held).bay 1).state = .held ∧ (base.bay 1).state ≠ .held) ∧
    ((base.setSlot 1 { SlotRec.initial with storeLost := true }).slot 1).storeLost = true ∧
    base.time.grace = true ∧ (base.slot 1).storeLost = false ∧
    (∃ st, base.store.Accepts (base.commitUpdate 1 (some .a)) base.now st) ∧
    (∃ st, (storing [⟨2, none, 5, none, false⟩]).store.Accepts (base.commitUpdate 1 (some .a)) 1020 st) ∧
    (∃ st, (storing [⟨1, none, 5, none, false⟩]).store.Accepts (base.commitUpdate 1 (some .a)) 1020 st) ∧
    (let s := faulted base
     s.Takes .a ∧ s.live .a = true ∧ (s.slot 1).phase = .unowned ∧ (s.bay 1).state ≠ .held ∧
       (s.slot 1).storeLost = false ∧ s.store.mode = .faulted ∧ ∀ a ∈ (s.port .a).awaiting, a.slot ≠ 1) := by
  unfold State.Takes
  exact ⟨by decide, by decide, by decide, by decide, by decide, by decide, by decide, by decide,
    ⟨_, accepts_of_ready _⟩, ⟨_, accepts_at_the_tail _ _ (by decide)⟩, ⟨_, accepts_in_place _ _ rfl⟩, by decide⟩

theorem witness_ReleaseAndHandoverGiveSlots :
    base.Takes .a ∧ (3 : SlotMask) ≠ 0 ∧ base.live .a = true ∧ base.live Node.a.partner = false ∧
    (base.setLease .b (leaseIn .live)).live Node.a.partner = true ∧ base.store.mode ≠ .faulted ∧
    ((3 : SlotMask).getLsbD 0 = true ∧ (base.slot 0).owner = some .a ∧ (base.slot 0).phase = .owned ∧
      (base.bay 0).state ≠ .held ∧ (base.engine 0).outstanding .a = 0) ∧
    (busy.engine 0).outstanding .a ≠ 0 ∧ ((inBay base 0 .held).bay 0).state = .held ∧
    ((gathering.slot 0).owner = some .a ∧ (gathering.slot 0).phase ≠ .owned) ∧ (base.slot 1).owner ≠ some .a ∧
    (base.Takes .b ∧ base.live .b = false) ∧
    (let s := faulted ((hears (hears base .a) .b).setLease .b (leaseIn .live))
     s.Takes .a ∧ s.live .a = true ∧ s.live Node.a.partner = true ∧ s.store.mode = .faulted ∧
       (s.slot 0).owner = some .a ∧ (s.slot 0).phase = .owned ∧ (s.bay 0).state ≠ .held ∧
       (s.engine 0).outstanding .a = 0 ∧ (s.notice .b).on = true ∧ (s.notice .b).mask = 0 ∧
       (s.notice .b).queue.length + 1 ≤ 32) := by
  unfold State.Takes
  decide

/-- Slot 0 COMMITTING on a path, with the write of its update in progress since tick 1,000. -/
def committing (path : CommitPath) (owner former : Owner) (attempt : Nat) : State :=
  writing (base.setSlot 0 { base.slot 0 with
    phase := .committing, owner := owner, target := some owner, path := some path, former := some former })
    true attempt

theorem witness_WrittenUpdateEndsTheCommit :
    ((writing base false 1).running = true ∧
      (writing base false 1).store.mode = .writing ⟨0, none, 42, some 7, false⟩ 1 1000 ∧
      20 ≤ (base.now - 1000).toNat ∧ (base.now - 1000).toNat ≤ 80) ∧
    ((tickAt base 1080).now - 1000).toNat = 80 ∧
    ((storing [⟨1, none, 5, none, false⟩]).store.mode = .writing ⟨0, none, 42, some 7, false⟩ 1 1000 ∧
      (storing [⟨1, none, 5, none, false⟩]).store.queue ≠ []) ∧
    (let s := committing .release none (some .a) 1
     s.store.queue = [] ∧ (s.slot 0).phase = .committing ∧ (s.slot 0).path = some .release ∧
       (s.slot 0).owner = none ∧ (s.slot 0).former = some (some .a)) ∧
    (let s := (committing .claim (some .a) none 1).setPort .a { openPort with awaiting := [⟨5, 0⟩] }
     (s.slot 0).path = some .claim ∧ (s.slot 0).owner = some .a ∧ s.live .a = true ∧
       (s.port .a).state = .up ∧ (s.port .a).awaiting = [⟨5, 0⟩]) ∧
    (let s := committing .handover (some .b) (some .a) 1
     (s.slot 0).path = some .handover ∧ (s.slot 0).owner = some .b ∧ s.gone .b = false ∧
       (s.slot 0).policy = .auto ∧ s.timing.gatherWindow ≠ 0) ∧
    (let s := (committing .handover (some .b) (some .a) 1).setLease .b (leaseIn .expired)
     s.gone .b = true ∧ s.live Node.b.partner = true ∧ (s.batch Node.b.partner).state = .noBatch) := by decide

/-- The commit of slot 0 to B as member of its running batch, and with slot 1 of A marked for B. -/
def taking : State :=
  let s := (committing .takeover (some .b) (some .a) 1).setLease .b (leaseIn .live)
  (s.setBatch .b { s.batch .b with
    state := .running, number := 1, members := [⟨0, .owned, some .a, .committing, some 1, none, none⟩] }).setReport
    0 (some pendingReport)
def takingMarked : State :=
  (taking.setSlot 1 { SlotRec.initial with phase := .owned, owner := some .a, autoPending := some .b }).setLease
    .a (leaseIn .expired)

theorem witness_TakeoverCommitEndsMemberAndBatch :
    (taking.running = true ∧ taking.store.mode = .writing ⟨0, none, 42, some 7, true⟩ 1 1000 ∧
      taking.store.queue = [] ∧ (taking.slot 0).phase = .committing ∧ (taking.slot 0).path = some .takeover ∧
      (taking.slot 0).owner = some .b ∧ (taking.slot 0).autoPending = none ∧ taking.gone .b = false ∧
      taking.timing.gatherWindow ≠ 0 ∧ (taking.batch .b).state = .running ∧
      ((taking.batch .b).members.map Member.slot).Nodup ∧
      ∃ m ∈ (taking.batch .b).members, m.slot = 0 ∧ m.prior = .owned ∧ m.oldOwner = some Node.b.partner) ∧
    (taking.report 0 = some pendingReport) ∧
    ((takingMarked.slot 1).autoPending = some .b ∧ (takingMarked.slot 1).phase = .owned ∧
      (takingMarked.slot 1).owner = some Node.b.partner ∧ takingMarked.staysGone Node.b.partner = true ∧
      (takingMarked.slot 1).policy = .auto ∧ takingMarked.live .b = true) ∧
    (MemberStatus.taken.isFinal = true ∧ MemberStatus.committing.isFinal = false) := by decide

/-- The last attempt for the CLAIM commit of slot 0 fails, while the HANDOVER commit of slot 1 and then a
fingerprint of slot 2 wait. -/
def failing : State :=
  let s := (committing .claim (some .a) none 3).setPort .a { openPort with awaiting := [⟨5, 0⟩] }
  let s := s.setSlot 1 { SlotRec.initial with
    phase := .committing, owner := some .b, target := some (some .b), path := some .handover
    former := some (some .a) }
  s.setStore { s.store with queue := [⟨1, some .b, 1, none, true⟩, ⟨2, none, 0, none, false⟩] }

theorem witness_FailedWriteIsRetriedThenFaults :
    ((writing base false 2).store.mode = .writing ⟨0, none, 42, some 7, false⟩ 2 1000 ∧
      (writing base false 2).running = true ∧ 20 ≤ (base.now - 1000).toNat) ∧
    (let s := committing .release none (some .b) 3
     s.store.mode = .writing ⟨0, none, 42, some 7, true⟩ 3 1000 ∧ s.store.queue = [] ∧
       (s.slot 0).phase = .committing ∧ (s.slot 0).path = some .release ∧
       (s.slot 0).former = some (some .b) ∧ (s.slot 0).owner = none) ∧
    (failing.running = true ∧ failing.store.mode = .writing ⟨0, none, 42, some 7, true⟩ 3 1000 ∧
      failing.store.queue.map Update.commitWaits = [true, false] ∧
      (failing.slot 0).phase = .committing ∧ (failing.slot 0).path = some .claim ∧
      (failing.slot 0).owner = some .a ∧ failing.gone .a = false ∧
      (failing.port .a).awaiting.filter (fun w => decide (w.slot = 0)) = [{ id := 5, slot := 0 }] ∧
      (failing.slot 1).phase = .committing ∧ (failing.slot 1).path = some .handover ∧
      (failing.slot 1).owner = some .b ∧ failing.gone .b = false) ∧
    (let s := writing taking true 3
     s.running = true ∧ s.store.mode = .writing ⟨0, none, 42, some 7, true⟩ 3 1000 ∧
       (s.slot 0).phase = .committing ∧ (s.slot 0).path = some .takeover ∧ (s.slot 0).owner = some .b ∧
       s.gone .b = false ∧ (∀ j, (s.slot j).autoPending ≠ some .b) ∧
       ((s.batch .b).members.map Member.slot).Nodup ∧
       (∃ m ∈ (s.batch .b).members, m.slot = 0 ∧ m.prior = .owned ∧ m.oldOwner = some Node.b.partner) ∧
       s.report 0 = some pendingReport ∧ (s.batch .b).state = .running) := by
  decide

/-! ### Takeover batches and reports -/

theorem witness_TakeClaimsTheFreeAndTheGone :
    (base.Takes .a ∧ base.live .a = true ∧ base.Takes .b ∧ base.live .b = false ∧ (255 : SlotMask) ≠ 0) ∧
    (draining.Takes .b ∧ draining.live .b = true ∧ (draining.batch .b).state = .running) ∧
    (aGone.Takes .b ∧ aGone.live .b = true ∧ (aGone.batch .b).state ≠ .running ∧
      aGone.timing.gatherWindow ≠ 0 ∧ (255 : SlotMask).getLsbD 0 = true ∧ (aGone.slot 0).phase = .owned ∧
      (aGone.slot 0).owner = some Node.b.partner ∧ aGone.gone Node.b.partner = true ∧
      (aGone.slot 1).phase = .unowned ∧ (aGone.slot 1).storeLost = false) ∧
    (base.gone .b = false ∧ (1 : SlotMask).getLsbD 1 = false) ∧
    (let s := aGone.setLease .a { Lease.initial with absentCause := some .left, leftGone := true }
     (s.slot 0).phase = .owned ∧ (s.slot 0).owner = some Node.b.partner ∧
       (s.lease Node.b.partner).state = .absent ∧ s.time.grace = true ∧ s.gone .a = false) ∧
    (gathering.Takes .b ∧ gathering.live .b = true ∧ (gathering.batch .b).state ≠ .running ∧
      (gathering.slot 0).phase = .claimed ∧ (gathering.slot 0).batch = some .b) ∧
    ((base.slot 0).owner = some .a ∧ (base.slot 0).phase = .owned ∧ base.timing.gatherWindow ≠ 0) ∧
    (let s : State := { aGone with timing := { aGone.timing with gatherWindow := 0 } }
     s.timing.gatherWindow = 0 ∧ s.store.mode ≠ .faulted ∧ (s.bay 0).state ≠ .held ∧ s.Takes .b) := by
  unfold State.Takes
  decide

theorem witness_CancelAndClaimantLossReturnTheSlots :
    (draining.Takes .b ∧ (draining.batch .b).state = .running) ∧
    (base.Takes .b ∧ (base.batch .b).state = .noBatch) ∧
    (gathering.Takes .b ∧ (gathering.batch .b).state = .gathering ∧
      ((gathering.batch .b).members.map Member.slot).Nodup ∧ (∀ i, (gathering.slot i).autoPending = none) ∧
      (gathering.slot 0).phase = .claimed ∧ (gathering.slot 0).batch = some .b) ∧
    (let s := tickAt (gathering.setLease .a (leaseIn .expired)) 1500
     s.live .b = true ∧ s.sweep.runsFor .b = false ∧ s.live Node.b.partner = false ∧
       (s.lease .b).expiry = some s.now ∧ (s.batch .b).state = .gathering ∧ s.Takes .b) ∧
    (let s := draining.setLease .a (leaseIn .expired)
     s.live .b = true ∧ s.live Node.b.partner = false ∧ (s.batch .b).state = .running) := by
  unfold State.Takes
  decide

theorem witness_GatherDeadlineRunsTheBatch :
    gathering.running = true ∧ (gathering.batch .b).state = .gathering ∧
    (gathering.batch .b).gatherDeadline = some gathering.now ∧ gathering.store.mode ≠ .faulted ∧
    ((gathering.batch .b).members.map Member.slot).Nodup ∧
    (∃ m ∈ (gathering.batch .b).members, m.status = .gathered ∧ m.prior = .owned ∧ m.oldOwner = some .a ∧
      (gathering.bay m.slot).state ≠ .held) ∧ ((inBay gathering 1 .held).bay 1).state = .held ∧
    (let s := inBay gathering 0 .held
     s.running = true ∧ (s.batch .b).state = .gathering ∧ (s.batch .b).gatherDeadline = some s.now ∧
       ((s.batch .b).members.map Member.slot).Nodup ∧
       (∀ m ∈ (s.batch .b).members, m.status = .gathered ∧ (s.bay m.slot).state = .held) ∧
       (s.batch .b).members ≠ [] ∧ (∀ j, (s.slot j).autoPending ≠ some .b) ∧
       (s.slot 0).phase = .claimed ∧ (s.slot 0).batch = some .b) := by decide

theorem witness_DrainDeadlinesResetTheLink :
    (handing.running = true ∧ (handing.slot 0).phase = .handing ∧ (handing.slot 0).owner = some .a ∧
      (handing.slot 0).target = some (some .b) ∧ (handing.slot 0).drainDeadline = some handing.now ∧
      handing.probing 0 = false ∧ (handing.bay 0).state = .ready ∧ handing.store.mode = .ready ∧
      handing.store.queue = [] ∧ (handing.engine 0).waiting.filter (fun c => decide (c.node = .a)) = []) ∧
    ((inBay handing 0 .failed).bay 0).state ≠ .ready ∧
    (let s := handing.setEngine 0 { handing.engine 0 with waiting := [cmdOf .a 1 .read] }
     (s.engine 0).waiting.filter (fun c => decide (c.node = .a)) ≠ []) ∧
    (draining.running = true ∧ (draining.slot 0).phase = .draining ∧ (draining.slot 0).batch = some .b ∧
      (draining.slot 0).drainDeadline = some draining.now ∧ draining.probing 0 = false ∧
      (draining.bay 0).state = .ready) ∧ ((inBay draining 0 .held).bay 0).state ≠ .ready ∧
    (draining.Takes .b ∧ draining.live .b = true ∧ (draining.slot 0).owner = some Node.b.partner) ∧
    (let s := draining.setBay 0 { bayIn .resetting with awaits := .identity }
     (s.bay 0).state = .resetting ∧ (s.bay 0).awaits = .identity ∧ (1 : Lba) ≠ 0 ∧
       (s.bay 0).recorded = some 7 ∧ (s.engine 0).tags = [] ∧ s.Quiet 0 ∧ s.store.mode = .ready ∧
       s.store.queue = []) ∧
    (let s := ((handing.setSlot 0 { handing.slot 0 with drainDeadline := none }).setBay 0
       { bayIn .resetting with awaits := .identity }).setEngine 0
       { handing.engine 0 with waiting := [cmdOf .a 1 .read] }
     s.running = true ∧ (s.slot 0).phase = .handing ∧ (s.slot 0).owner = some .a ∧
       (s.slot 0).drainDeadline = none ∧ (s.bay 0).state = .resetting ∧ (s.bay 0).awaits = .identity ∧
       (s.bay 0).recorded = some 7 ∧ (s.engine 0).outstanding .a = 1) := by
  unfold State.Takes State.Quiet
  decide

/-- Slot 0's report FINAL, with B as its new owner. -/
def reported : State :=
  (base.setReport 0 (some { pendingReport with closing := some ⟨42, true, 1000⟩ })).setLease .b (leaseIn .live)

theorem witness_ReportsAreReadAndDiscarded :
    (base.Takes .a ∧ 47 < (48 : Byte).toNat ∧ (47 : Byte).toNat ≤ 47 ∧ base.report 0 = none) ∧
    (reported.Takes .b ∧ (reported.report 0).isSome ∧ reported.live .b = true) ∧
    (reported.live .a = true ∧ ∀ r ∈ reported.report 0, r.newOwner = .b ∧ r.newOwner ≠ .a ∧ r.closing.isSome) ∧
    ((base.setReport 0 (some pendingReport)).report 0 = some pendingReport ∧ base.live .b = false ∧
      pendingReport.closing = none) := by
  unfold State.Takes
  decide

/-! ### Windows -/

theorem witness_WindowsAreSetAndCleared :
    (windowed.Takes .a ∧ windowed.live .a = true ∧ windowed.Takes .b ∧ windowed.live .b = false) ∧
    ((5 : Lba).toNat ≤ (5 : Lba).toNat ∧ (4 : Lba).toNat < (5 : Lba).toNat ∧ 3 < (4 : Byte).toNat) ∧
    ((draining.slot 0).phase ≠ .owned ∧ (draining.slot 0).phase ≠ .unowned) ∧
    (windowed.slot 1).phase = .unowned ∧ ((windowed.slot 0).phase = .owned ∧ (windowed.slot 0).owner = some .a) ∧
    ((windowed.window 0).active = none ∧ (windowed.window 3).active = some ⟨0, 8, 8, .trip, .a, 0⟩) ∧
    (let s := inPhase windowed 0 .claimed
     (s.slot 0).owner = some .a ∧ (s.slot 0).phase = .claimed) ∧
    (let s := windowed.setSlot 0 { windowed.slot 0 with owner := some .b }
     (s.slot 0).owner ≠ some .a ∧ s.live .a = true) := by
  unfold State.Takes
  decide

/-! ### The ownership audit -/

theorem witness_AuditProbesTheSlot :
    (let s := hears base .a
     s.Takes .a ∧ (s.bay 0).state = .ready ∧ (s.slot 0).phase = .owned ∧ (s.engine 0).waiting = [] ∧
       lowestFree (s.engine 0).tags = some 0 ∧ s.live .a = true ∧ (s.notice .a).on = true ∧
       s.sweep.state = .idle) ∧
    (let s := sweeping .pausedStep .stepped none
     s.Takes .a ∧ s.sweep.state = .pausedStep ∧ s.sweep.runsFor .a = true ∧ s.sweep.current = some 0) ∧
    (let s := crowded (hears base .a) (.probe false) false
     s.Takes .a ∧ (s.bay 0).state = .ready ∧ (s.slot 0).phase = .owned ∧ s.live .a = true ∧
       (s.notice .a).on = true ∧ s.sweep.state = .idle ∧ (s.engine 0).waiting ≠ [] ∧
       lowestFree (s.engine 0).tags = none ∧
       lowestFree ((crowded (sweeping .pausedStep .stepped none) (.probe false) false).engine 0).tags = none) := by
  unfold State.Takes
  decide

theorem witness_SweepSettlesSlotsWithoutProbe :
    (let s := (sweeping .pausedStep .stepped none).setBay 0 Bay.initial
     s.Takes .a ∧ (s.notice .a).on = true ∧ (s.notice .a).mask = 0 ∧ (s.bay 0).state = .empty ∧
       s.sweep.state = .pausedStep ∧ s.sweep.current = some 0 ∧ s.sweep.probe = none ∧
       (∀ w ∈ s.sweep.run, w.requester = .a ∧ w.mode = .stepped ∧ w.last = 0 ∧ w.budget = 0) ∧
       s.sweep.run.isSome ∧ (s.notice .a).queue.length < 31) ∧
    ((inBay base 0 .held).bay 0).state = .held ∧
    ((1 : Byte) ≠ 0 ∧ (1 : Byte).toNat ≤ (satInc 0).toNat ∧ (satInc 0).toNat < (2 : Byte).toNat) ∧
    32 ≤ ((queued 32).notice .a).queue.length ∧
    (let s := (hears base .a).setBay 0 Bay.initial
     s.live .a = true ∧ s.sweep.state = .idle ∧ (s.notice .a).queue.length < 32 ∧
       (s.bay 1).state = .ready ∧ (s.slot 1).phase = .unowned ∧ (s.engine 1).waiting = [] ∧
       lowestFree (s.engine 1).tags = some 0) := by
  unfold State.Takes
  decide

theorem witness_SweepEndsAndAuditRefusals :
    (let s := sweeping .pausedStep .stepped none
     s.Takes .a ∧ s.sweep.state ≠ .idle ∧ s.sweep.run.isSome ∧ s.sweep.probe = none ∧ s.Takes .b ∧
       s.sweep.runsFor .b = false ∧ (∀ w ∈ s.sweep.run, w.requester = .a ∧ w.mode ≠ .once)) ∧
    (let s := sweeping .probing .once (some (.dispatched 4 1020))
     s.sweep.current = some 0 ∧ s.sweep.probe = some (.dispatched 4 1020) ∧ s.sweep.state = .probing ∧
       s.sweep.runsFor .a = true) ∧
    (base.Takes .a ∧ base.sweep.state = .idle ∧ base.live .a = true ∧ (base.notice .a).on = false ∧
      base.live .b = false ∧ 4 < (5 : Byte).toNat ∧ (4 : Byte).toNat ≤ 4 ∧ (4 : Byte) ≠ 0) ∧
    (sweeping .pausedFull .once none).sweep.state = .pausedFull ∧
    (let s := tickAt (sweeping .probing .once (some .requested)) 1500
     s.Takes .a ∧ s.sweep.state ≠ .idle ∧ (∀ w ∈ s.sweep.run, w.requester = .a ∧ w.mode = .once) ∧
       s.sweep.run.isSome ∧ (s.notice .a).on = true ∧ (s.notice .a).mask = 0 ∧
       (s.notice .a).queue.length < 32 ∧ s.live .a = true ∧ (s.batch .a).state ≠ .gathering ∧
       s.live Node.a.partner = false ∧ (s.lease .a).expiry = some s.now ∧
       (s.lease .a).fastExpiry = false ∧ s.sweep.current = some 0 ∧ s.sweep.probe = some .requested ∧
       (s.bay 1).state = .ready ∧ (s.slot 1).phase = .unowned ∧ (s.engine 1).waiting = [] ∧
       lowestFree (s.engine 1).tags = some 0) := by
  unfold State.Takes
  decide

/-- A's sweep of slot 0 with its probe outstanding under tag 4. -/
def probedAt (st : BayState) : State :=
  inBay (withTags (sweeping .probing .once (some (.dispatched 4 1020))) 0 [⟨4, .probe true⟩]) 0 st

/-- A sweep of slots 1 to 0 that is at slot 0. -/
def cycling : State :=
  (sweeping .probing .cyclic (some (.dispatched 4 1020))).setSweep
    { (sweeping .probing .cyclic (some (.dispatched 4 1020))).sweep with
      run := some { requester := .a, first := 1, last := 0, mode := .cyclic, budget := 0, issued := 0,
                    pass := 0, startTick := 0 } }

/-- A's sweep of slots 0 to `last` with a probe of slot 0 outstanding, the removal of its drive due now, and
`k` notices queued. -/
def probing (mode : AuditMode) (last : Slot) (p : Probe) (k : Nat) : State :=
  (leaving (queued k)).setSweep { base.sweep with
    state := .probing, current := some 0, probe := some p
    run := some { requester := .a, first := 0, last := last, mode := mode, budget := 0, issued := 0,
                  pass := 0, startTick := 0 } }

theorem witness_ProbeIsSettledByLimitOrAnswer_bay (s : State)
    (h : s ∈ [probing .once 0 .requested 30, probing .once 0 (.dispatched 4 1020) 29,
      probing .stepped 1 .requested 31, probing .cyclic 0 .requested 32]) :
    s.running = true ∧ s.sweep.state = .probing ∧ s.sweep.current = some 0 ∧ s.sweep.probe.isSome ∧
    (∀ w ∈ s.sweep.run, w.requester = .a ∧ w.budget = 0) ∧ s.sweep.run.isSome ∧
    (s.notice .a).on = true ∧ (s.notice .a).mask = 0 ∧ s.Still 0 ∧ (s.bay 0).state = .ready ∧
    (s.bay 0).debounce = some s.now ∧ (s.bay 0).input = false ∧ s.Takes .a ∧ s.live .a = true ∧
    (s.slot 0).phase = .owned ∧ (s.slot 0).owner = some .a := by
  unfold State.Still State.Takes
  simp only [List.mem_cons, List.not_mem_nil, or_false] at h
  rcases h with rfl | rfl | rfl | rfl <;> decide

theorem witness_ProbeIsSettledByLimitOrAnswer_waiting :
    (let s := (hears (probedAt .ready) .b).setEngine 0
       { (probedAt .ready).engine 0 with waiting := [cmdOf .a 1 .read] }
     s.Still 0 ∧ (s.bay 0).state = .ready ∧ (s.engine 0).waiting ≠ [] ∧ (s.engine 0).probeRequest = false ∧
       (s.engine 0).entry 4 = some ⟨4, .probe true⟩ ∧ (s.notice .a).queue.length < 30 ∧
       (s.notice Node.a.partner).on = true ∧ (s.notice Node.a.partner).mask = 0 ∧
       (s.notice Node.a.partner).queue.length < 32) ∧
    ((1 : BitVec 16) ≠ 0 ∨ (5 : Lba) = 0) ∧ ((0 : BitVec 16) ≠ 0 ∨ (0 : Lba) = 0) := by
  unfold State.Still
  decide

theorem witness_ProbeIsSettledByLimitOrAnswer :
    (cycling.sweep.state = .probing ∧ cycling.sweep.current = some 0 ∧
      cycling.sweep.probe = some (.dispatched 4 cycling.now) ∧ (∀ w ∈ cycling.sweep.run, w.last = 0 ∧
        w.mode = .cyclic ∧ w.budget = 0 ∧ w.first ≠ 0 ∧ (cycling.notice w.requester).on = true ∧
        (cycling.notice w.requester).queue.length < 32 ∧ (cycling.bay w.first).state = .ready ∧
        (cycling.slot w.first).phase = .unowned ∧ (cycling.engine w.first).waiting = [] ∧
        lowestFree (cycling.engine w.first).tags = some 0) ∧ cycling.sweep.run.isSome) ∧
    (probedAt .suspect).Still 0 ∧ ((probedAt .suspect).engine 0).probeRequest = false ∧
    (((probedAt .suspect).bay 0).state = .suspect ∧ ((probedAt .ready).bay 0).recorded = some 7 ∧
      ((probedAt .suspect).bay 0).recorded = some 7 ∧ (7 : Fingerprint) ≠ 8 ∧ (1 : BitVec 16) ≠ 0 ∧
      ((probedAt .suspect).slot 0).owner.isSome ∧
      (((probedAt .suspect).setSlot 0 SlotRec.initial).slot 0).owner = none) ∧
    let s := probedAt .ready
    s.running = true ∧ s.sweep.state = .probing ∧ s.sweep.current = some 0 ∧
    s.sweep.probe = some (.dispatched 4 s.now) ∧
    (∀ w ∈ s.sweep.run, w.last = 0 ∧ w.mode ≠ .cyclic ∧ w.budget = 0 ∧ w.requester = .a) ∧
    s.sweep.run.isSome ∧ (s.notice .a).on = true ∧ (s.notice .a).mask = 0 ∧
    (s.notice .a).queue.length < 31 ∧ s.Still 0 ∧ (s.engine 0).probeRequest = false ∧ (s.bay 0).state = .ready ∧
    (s.bay 0).recorded = some 7 ∧ (1 : Lba) ≠ 0 ∧ (s.engine 0).entry 4 = some ⟨4, .probe true⟩ := by
  unfold State.Still
  decide

/-! ### Power and reset -/

theorem witness_ResetAndPowerFailStopTheController :
    (writing base true 1).running = true ∧ base.running = true := by decide

theorem witness_StartUpRestoresFromTheStore :
    (let s := { base with power := ⟨true, true⟩ }
     s.store.mode = .ready ∧ s.power = { powered := true, resetAsserted := true }) ∧
    ((off base).store.mode = .ready ∧ (off base).power = { powered := false, resetAsserted := false }) := by
  decide

/-! ### One step of a few commands -/

/-- R53 to R56: the owner's WRITE goes to the drive under tag 0 at that step. -/
theorem test_command_reaches_the_drive :
    (match step { base with pending := [.cmd .a 0 7 2 41 8 4] } with
      | .next t => decide (t.driveOut[0] = [.command 0 .write 8 4] ∧ t.pending = [] ∧
          (t.engine 0).tags = [⟨0, .active ⟨.a, 7, .write, 8, 4⟩ 1020⟩])
      | _ => false) = true := by decide

/-- R31 and R29's Rounded case under FALLBACK: S = 15,320, lapse after 5,020 ticks. -/
theorem test_heartbeat_deadlines :
    (match exec (.heartbeat .a 1 750 3 0) base with
      | .next t => decide ((t.lease .a).expiry = some (1020 + 15320) ∧ (t.lease .a).lapse = some (1020 + 5020))
      | _ => false) = true := by decide

/-- R51: a command whose last block is the drive's last is admitted, one block further is BAD_COMMAND. -/
theorem test_capacity_boundary :
    admission base .a 0 1 (some .read) 41 96 4 = .accept .read none ∧
    admission base .a 0 1 (some .read) 41 97 4 = .refuse .badCommand 0 := by decide

/-- R18, R7: the last command of a HANDING slot's owner hands the slot to B at generation 42. -/
theorem test_handover_commits :
    (match exec (.driveCompletion 0 5 0 0 0) (withTags handing 0 [⟨5, .active (cmdOf .a 2 .write) 0⟩]) with
      | .next t => decide ((t.slot 0).phase = .committing ∧ (t.slot 0).owner = some .b ∧
          (t.slot 0).generation = 42)
      | _ => false) = true := by decide

/-- R88 to R90: with one command at the drive the slot drains until now + 20,500 ticks (B and P of R80). -/
theorem test_gather_drains :
    (match exec (.gatherDeadline .b) (withTags gathering 0 [⟨0, .active (cmdOf .a 2 .write) 0⟩]) with
      | .next t => decide ((t.slot 0).phase = .draining ∧ (t.slot 0).drainDeadline = some (1020 + 20500) ∧
          (t.engine 0).orphans = 1)
      | _ => false) = true := by decide

/-- R126, R117: UNHOLD gives the bay 10 s for its bring-up. -/
theorem test_unhold :
    (match exec (.unhold .a 1 0) (inBay base 0 .held) with
      | .next t => decide ((t.bay 0).state = .bringup ∧ (t.bay 0).bringupDeadline = some (1020 + 100000))
      | _ => false) = true := by decide

end Sys2Proof.Tests
end

section
/-! Arithmetic of the drain limit and of the lease span (R17, R27 to R30, R90). -/

namespace Sys2Proof.Machine

/-! ### The drain limit -/

theorem drainLimit_eq_or (t : Timing) (n : Nat) :
    drainLimit t n = (t.drainBase + t.drainPerCommand * n) * 10 ∨ drainLimit t n = t.drainCap * 10 :=
  min_choice _ _

theorem drainLimit_mono (t : Timing) {n m : Nat} (h : n ≤ m) : drainLimit t n ≤ drainLimit t m :=
  min_le_min_right _ (Nat.mul_le_mul_right _ (Nat.add_le_add_left (Nat.mul_le_mul_left _ h) _))

theorem drainLimit_range {t : Timing} (h : t.Ok) (n : Nat) :
    1000 ≤ drainLimit t n ∧ drainLimit t n ≤ 1200000 := by
  obtain ⟨-, ⟨hbase, -⟩, -, ⟨hcap, hcap'⟩, -⟩ := h
  have hper : t.drainBase ≤ t.drainBase + t.drainPerCommand * n := Nat.le_add_right _ _
  exact ⟨le_min (by omega) (by omega), (min_le_right _ _).trans (by omega)⟩

/-! ### The span of a lease -/

/-- Division rounded up is the least multiple not below the dividend. -/
theorem ceilDiv_spec (x : Nat) {y : Nat} (hy : 0 < y) : x ≤ ceilDiv x y * y ∧ ceilDiv x y * y < x + y := by
  have hmod := Nat.mod_lt (x + (y - 1)) hy
  have hdiv := Nat.div_add_mod (x + (y - 1)) y
  rw [Nat.mul_comm] at hdiv
  unfold ceilDiv
  omega

/-- A grade of R27 lies between 20 ms and 20,000 ms. -/
theorem gradeMs_range (i : Fin 10) : 20 ≤ gradeMs i ∧ gradeMs i ≤ 20000 := by
  revert i
  decide

theorem tolerance_range (src : Source) : 200 ≤ tolerance src ∧ tolerance src ≤ 20000 := by
  cases src <;> decide

/-- R29, R30: the span's product is at least M grades and at most M grades and a fiftieth more. -/
theorem spanProduct_range (i : Fin 10) (m : Nat) (src : Source) :
    gradeMs i * 10 * m * 1000200 ≤ gradeMs i * 10 * m * (1000000 + tolerance src) ∧
    gradeMs i * 10 * m * (1000000 + tolerance src) ≤ gradeMs i * 10 * m * 1020000 := by
  obtain ⟨hlo, hhi⟩ := tolerance_range src
  exact ⟨Nat.mul_le_mul_left _ (by omega), Nat.mul_le_mul_left _ (by omega)⟩

/-- The number of ticks of M grades is between 200 and 1,600,000. -/
theorem gradeTicks_range (i : Fin 10) {m : Nat} (h1 : 1 ≤ m) (h8 : m ≤ 8) :
    200 ≤ gradeMs i * 10 * m ∧ gradeMs i * 10 * m ≤ 1600000 ∧ (2 ≤ m → gradeMs i * 10 * 2 ≤ gradeMs i * 10 * m) := by
  obtain ⟨hlo, hhi⟩ := gradeMs_range i
  refine ⟨?_, ?_, fun h => Nat.mul_le_mul_left _ h⟩
  · exact (by omega : 200 ≤ gradeMs i * 10 * 1).trans (Nat.mul_le_mul_left _ h1)
  · exact (Nat.mul_le_mul_left _ h8).trans (by omega)

/-- The span of R29 is 20 ticks more than its product rounded up. -/
theorem spanTicks_sub (g m t : Nat) :
    g * 10 * m * (1000000 + t) ≤ (spanTicks g m t - 20) * 1000000 ∧
    (spanTicks g m t - 20) * 1000000 < g * 10 * m * (1000000 + t) + 1000000 := by
  unfold spanTicks
  rw [Nat.add_sub_cancel]
  exact ceilDiv_spec _ (by decide)

theorem spanTicks_ge (g m t : Nat) : 20 ≤ spanTicks g m t := Nat.le_add_left _ _

/-- R29, R30: the range of every span. -/
theorem spanTicks_range (i : Fin 10) {m : Nat} (src : Source) (h1 : 1 ≤ m) (h8 : m ≤ 8) :
    221 ≤ spanTicks (gradeMs i) m (tolerance src) ∧ spanTicks (gradeMs i) m (tolerance src) ≤ 1632020 := by
  have hsub := spanTicks_sub (gradeMs i) m (tolerance src)
  have hge := spanTicks_ge (gradeMs i) m (tolerance src)
  have hprod := spanProduct_range i m src
  have hticks := gradeTicks_range i h1 h8
  omega

/-- R30: with a missed heartbeat allowed the lapse comes before the expiry. -/
theorem lapse_before_expiry (i : Fin 10) {m : Nat} (src : Source) (h2 : 2 ≤ m) (h8 : m ≤ 8) :
    gradeMs i * 10 + 20 < spanTicks (gradeMs i) m (tolerance src) := by
  have hsub := spanTicks_sub (gradeMs i) m (tolerance src)
  have hge := spanTicks_ge (gradeMs i) m (tolerance src)
  have hprod := spanProduct_range i m src
  have hticks := gradeTicks_range i (by omega) h8
  have hgrade := gradeMs_range i
  omega

/-- Settles O12: the least of two formulas, and the span's product rounded up. -/
theorem drainLimitsAndSpansStayInRange : Obligations.DrainLimitsAndSpansStayInRange := by
  refine ⟨fun t n m ht hnm => ?_, fun i m src h1 h8 x S hx hS => ?_⟩
  · obtain ⟨hlo, hhi⟩ := drainLimit_range ht n
    exact ⟨drainLimit_eq_or t n, min_le_left _ _, min_le_right _ _, hlo, hhi, drainLimit_mono t hnm⟩
  · subst hx hS
    obtain ⟨hlo, hhi⟩ := spanTicks_range i src h1 h8
    obtain ⟨hle, hlt⟩ := spanTicks_sub (gradeMs i) m (tolerance src)
    exact ⟨hlo, hhi, hle, hlt, fun h2 => lapse_before_expiry i src h2 h8⟩

end Sys2Proof.Machine
end

section
/-! What each command keeps: the gates, then the meanings in the order of the model's files, each made of
the shared operations of Laws/. The end is `exec_keeps`, of every command but those of power. -/

namespace Sys2Proof.Machine

/-! ### The gates -/

theorem Keeps.of_next {s t u : State} (hu : (.next u : Host.Outcome State Fault Refusal) = .next t)
    (h : Keeps s u) : Keeps s t := by
  cases hu
  exact h

theorem Keeps.whenRunning {s : State} {f : State → State} (h : s.running = true → Keeps s (f s)) :
    Keeps s (whenRunning f s) := by
  unfold Machine.whenRunning
  exact .ite h (fun _ => .refl s)

theorem Keeps.whenUp {s : State} {n : Node} {f : State → State} (h : s.Takes n → Keeps s (f s)) :
    Keeps s (whenUp n f s) := by
  unfold Machine.whenUp
  exact .ite (fun hg => h (by simpa [State.Takes] using hg)) (fun _ => .refl s)

theorem Keeps.whenTrue {p : State → Bool} {s : State} {f : State → State} (h : p s = true → Keeps s (f s)) :
    Keeps s (whenTrue p f s) := by
  unfold Machine.whenTrue
  exact .ite h (fun _ => .refl s)

/-! ### Admission (R47 to R53) -/

theorem allWindows_find_some {p : Fin 4 → Bool} {k : Fin 4} (h : allWindows.find? p = some k) : p k = true :=
  List.find?_some h

/-- A window that admits a command is ACTIVE (R73). -/
theorem shareWindow_active {s : State} {i : Slot} {kind : Option Kind} {lba : Lba} {count : BitVec 16}
    {k : Fin 4} (h : shareWindow s i kind lba count = some k) : (s.window k).active ≠ none := by
  have hk := allWindows_find_some h
  intro hnone
  simp [hnone] at hk

/-- A window that traps a command is ACTIVE (R74). -/
theorem tripWindow_active {s : State} {i : Slot} {lba : Lba} {count : BitVec 16} {k : Fin 4}
    (h : tripWindow s i lba count = some k) : (s.window k).active ≠ none := by
  have hk := allWindows_find_some h
  intro hnone
  simp [hnone] at hk

/-- R51, R52: what holds of a command that passes the last four checks. -/
structure Admissible (s : State) (n : Node) (i : Slot) (tag : Byte) : Prop where
  tagFree : tagOutstanding (s.engine i) n tag = false
  quota : (s.engine i).outstanding n < (s.slot i).quota.get n
  place : (s.engine i).waiting.length < 16

theorem lateChecks_accept {s : State} {n : Node} {i : Slot} {tag : Byte} {kind : Option Kind} {lba : Lba}
    {count : BitVec 16} {window w : Option (Fin 4)} {k : Kind}
    (h : lateChecks s n i tag kind lba count window = .accept k w) :
    Admissible s n i tag ∧ w = window := by
  unfold lateChecks at h
  dsimp only at h
  split at h
  · cases h
  · split at h
    · cases h
    · split at h
      · cases h
      · rename_i htag
        split at h
        · cases h
        · rename_i hquota
          split at h
          · cases h
          · rename_i hplace
            cases h
            exact ⟨⟨by simpa using htag, by omega, by omega⟩, rfl⟩

theorem lateChecks_ne_trap {s : State} {n : Node} {i : Slot} {tag : Byte} {kind : Option Kind} {lba : Lba}
    {count : BitVec 16} {window : Option (Fin 4)} {k : Fin 4} :
    lateChecks s n i tag kind lba count window ≠ .trap k := by
  intro h
  unfold lateChecks at h
  dsimp only at h
  split at h
  · cases h
  · repeat' split at h
    all_goals cases h

/-- What admission can say (R47): an admitted command has passed the last four checks and its window is
ACTIVE, and a trapping window is ACTIVE. -/
def Verdict.Sound (s : State) (n : Node) (i : Slot) (tag : Byte) : Verdict → Prop
  | .refuse _ _ => True
  | .trap k => (s.window k).active ≠ none
  | .accept _ w => Admissible s n i tag ∧ ∀ k, w = some k → (s.window k).active ≠ none

theorem lateChecks_sound {s : State} {n : Node} {i : Slot} {tag : Byte} {kind : Option Kind} {lba : Lba}
    {count : BitVec 16} {window : Option (Fin 4)}
    (hw : ∀ k, window = some k → (s.window k).active ≠ none) :
    (lateChecks s n i tag kind lba count window).Sound s n i tag := by
  cases hl : lateChecks s n i tag kind lba count window with
  | refuse => trivial
  | trap k => exact absurd hl lateChecks_ne_trap
  | accept k w =>
    obtain ⟨hadm, rfl⟩ := lateChecks_accept hl
    exact ⟨hadm, hw⟩

theorem admission_sound (s : State) (n : Node) (i : Slot) (tag : Byte) (kind : Option Kind) (gen : Gen)
    (lba : Lba) (count : BitVec 16) : (admission s n i tag kind gen lba count).Sound s n i tag := by
  unfold admission
  dsimp only
  split
  · trivial
  · split
    · trivial
    · split
      · trivial
      · split
        · split
          · rename_i htrip
            split at htrip
            · exact tripWindow_active htrip
            · cases htrip
          · split
            · trivial
            · exact lateChecks_sound (by simp)
        · split
          · trivial
          · rename_i k hshare
            split
            · trivial
            · exact lateChecks_sound fun j hj => by cases hj; exact shareWindow_active hshare

/-- R73, R74: a credit to an ACTIVE window. -/
theorem Keeps.hit {s : State} {k : Fin 4} (h : (s.window k).active ≠ none) : Keeps s (s.hit k) :=
  .setWindow fun hw => ⟨hw.1, fun hn => absurd hn h⟩

theorem Keeps.trapped {s : State} {k : Fin 4} (h : (s.window k).active ≠ none) (n : Node) (i : Slot)
    (tag : Byte) (lba : Lba) (count : BitVec 16) : Keeps s (s.trapped n i tag lba count k) := by
  have hwin : (s.sendCpl n i tag .trapped (BitVec.ofNat 16 k.val)).window k = s.window k := by
    unfold State.sendCpl
    dsimp only
    split <;> rfl
  exact ((Keeps.sendCpl s n i tag _ _).trans (.hit (by rwa [hwin]))).trans (.raiseBoth _ _ _)

/-- A node tag that is not outstanding is none of the outstanding ones. -/
theorem tagOutstanding_false {e : Engine} {n : Node} {tag : Byte} (h : tagOutstanding e n tag = false) :
    (n, tag) ∉ e.outstandingTags := by
  simp only [tagOutstanding, Bool.or_eq_false_iff, List.any_eq_false] at h
  obtain ⟨hwaiting, hactive⟩ := h
  simp only [Engine.outstandingTags, List.mem_append, List.mem_map, not_or, not_exists, not_and]
  refine ⟨fun c hc he => hwaiting c hc (by simpa using he), fun c hc he => ?_⟩
  obtain ⟨t, ht, htc⟩ := List.mem_filterMap.1 hc
  have hno := hactive t ht
  cases hrole : t.role <;> simp_all

/-- R53: an admissible command at the tail of the waiting list. -/
theorem Engine.admitted_ok {e : Engine} {c : Command} (h : e.Ok) (hplace : e.waiting.length < 16)
    (htag : tagOutstanding e c.node c.tag = false) (hcount : e.outstanding c.node < 32) :
    ({ e with waiting := e.waiting ++ [c] } : Engine).Ok := by
  obtain ⟨hlen, htags, hnodup, hout⟩ := h
  have hperm : ({ e with waiting := e.waiting ++ [c] } : Engine).outstandingTags.Perm
      ((c.node, c.tag) :: e.outstandingTags) := by
    simp only [Engine.outstandingTags, List.map_append, List.map_cons, List.map_nil, List.append_assoc]
    exact List.perm_middle
  refine ⟨by simpa using hplace, htags, hperm.nodup_iff.2 (List.nodup_cons.2 ⟨tagOutstanding_false htag, hnodup⟩),
    fun n => ?_⟩
  have hn := hout n
  rw [Engine.outstanding_eq] at hn hcount ⊢
  rw [hperm.countP_eq, List.countP_cons]
  by_cases hc : c.node = n
  · subst hc
    simpa using hcount
  · simpa [hc] using hn

/-- R53, in a state whose quotas are in range. -/
theorem Keeps.enqueueCommand {s : State} {i : Slot} {c : Command} (h : Admissible s c.node i c.tag) :
    Keeps s (s.setEngine i { s.engine i with waiting := (s.engine i).waiting ++ [c] }) where
  pending := rfl
  power := rfl
  slots := id
  leases := id
  engines a j := by
    refine ⟨?_, (a j).2⟩
    rw [State.setEngine_engine]
    split
    · exact Engine.admitted_ok (a i).1 h.place h.tagFree (h.quota.trans_le ((a i).2 _))
    · exact (a j).1
  windows := id
  owned := id
  bays := id
  notices := id
  ports := id
  store := id
  timing := id

theorem Keeps.admitted {s : State} {i : Slot} {c : Command} {w : Option (Fin 4)}
    (h : Admissible s c.node i c.tag) (hw : ∀ k, w = some k → (s.window k).active ≠ none) :
    Keeps s (s.admitted i c w) := by
  unfold State.admitted
  dsimp only
  split
  · rename_i k
    exact (Keeps.enqueueCommand h).trans (.hit (hw k rfl))
  · exact .enqueueCommand h

theorem Keeps.command (n : Node) (i : Slot) (tag kind : Byte) (gen : Gen) (lba : Lba) (count : BitVec 16)
    (s : State) : Keeps s (command n i tag kind gen lba count s) := by
  have hsound := admission_sound s n i tag (kindOf kind) gen lba count
  unfold Machine.command
  cases hv : admission s n i tag (kindOf kind) gen lba count with
  | refuse st d => exact .sendCpl s n i tag st d
  | trap k =>
    rw [hv] at hsound
    exact .trapped hsound n i tag lba count
  | accept k w =>
    rw [hv] at hsound
    obtain ⟨hadm, hw⟩ := hsound
    exact (Keeps.admitted hadm hw).trans (.arbiter _ i)

theorem Keeps.relayData (n : Node) (i : Slot) (tag : Byte) (p : List Byte) (s : State) :
    Keeps s (relayData n i tag p s) := by
  unfold Machine.relayData
  split
  · exact .toDrive s i _
  · dsimp only
    refine (Keeps.setEngine ?_).trans (Keeps.setPort ?_)
    · exact fun h => h.same rfl rfl
    · exact fun h hd => h hd

/-! ### The node ports (R150 to R157) -/

theorem Keeps.countCheckError (n : Node) (s : State) : Keeps s (countCheckError n s) := .setPort fun h => h

theorem Keeps.haltPort (n : Node) (k : FaultKind) (f : List Byte) (s : State) : Keeps s (haltPort n k f s) :=
  .setPort fun _ h => by cases h

theorem Keeps.resume (n : Node) (id : BitVec 16) (s : State) : Keeps s (resume n id s) := by
  unfold Machine.resume
  dsimp only
  split
  · exact (Keeps.setPort fun _ h => by cases h).trans (.reply _ n id _ _ _)
  · exact .reply s n id _ _ _
  · exact .refl s

theorem Keeps.trained (n : Node) (s : State) : Keeps s (trained n s) := .setPort fun _ h => by cases h

theorem Keeps.losePort (n : Node) (s : State) : Keeps s (s.setPort n (s.port n).lose) :=
  .setPort fun _ _ => ⟨rfl, rfl⟩

/-! ### Leases and the timebase (R24 to R42) -/

/-- A lease that is live, in the terms of R24. -/
theorem State.live_iff (s : State) (n : Node) :
    s.live n = true ↔ (s.lease n).state = .live ∨ (s.lease n).state = .lapsing := by
  simp [State.live]

theorem missOf_range (x : Nat) : 1 ≤ missOf x ∧ missOf x ≤ 8 := by
  unfold missOf
  omega

/-- R27 to R31: a heartbeat makes a lease that is in order. -/
theorem Lease.beat_ok (l : Lease) (now : Tick) (src : Source) (period miss : Nat) (fast : Bool) :
    (l.beat now src period miss fast).Ok := by
  obtain ⟨hlo, hhi⟩ := missOf_range miss
  have hspan := spanTicks_range (gradeIndex period) src hlo hhi
  refine ⟨by simp [Lease.beat], by simp [Lease.beat], by simp [Lease.beat], by simp [Lease.beat],
    fun _ => rfl, fun _ => rfl, ?_⟩
  rintro g ⟨rfl⟩
  refine ⟨hlo, hhi, hspan.1, hspan.2, fun _ => ?_⟩
  by_cases h2 : 2 ≤ missOf miss <;> simp [Lease.beat, h2]

/-- R32: a LIVE lease that lapses. -/
theorem Lease.lapsing_ok {l : Lease} (h : l.Ok) (hs : l.state = .live) :
    ({ l with state := .lapsing, lapse := none } : Lease).Ok := by
  obtain ⟨habsent, hleft, hexpiry, hbasis, hlapse, hgrant, hranges⟩ := h
  simp_all [Lease.Ok]

/-- R33: a live lease that expires. -/
theorem Lease.expired_ok {l : Lease} (h : l.Ok) (hs : l.state = .live ∨ l.state = .lapsing) :
    (l.stop .expired).Ok := by
  obtain ⟨habsent, hleft, hexpiry, hbasis, hlapse, hgrant, hranges⟩ := h
  rcases hs with hs | hs <;> simp_all [Lease.Ok, Lease.stop]

/-- R36 item 1: a lease that is left. -/
theorem Lease.left_ok {l : Lease} (h : l.Ok) : ({ l.stop .absent with absentCause := some .left } : Lease).Ok := by
  obtain ⟨habsent, hleft, hexpiry, hbasis, hlapse, hgrant, hranges⟩ := h
  simp_all [Lease.Ok, Lease.stop]

/-- R36 items 2 and 3: a LEAVE of a lease that is not live. -/
theorem Lease.leaveEnded_ok {l : Lease} (h : l.Ok) (hs : ¬(l.state = .live ∨ l.state = .lapsing)) :
    l.leaveEnded.Ok := by
  obtain ⟨habsent, hleft, hexpiry, hbasis, hlapse, hgrant, hranges⟩ := h
  simp_all [Lease.Ok]

/-- R39: a stretched lease. -/
theorem Lease.stretch_ok {l : Lease} (h : l.Ok) (now : Tick) (hs : l.state = .live ∨ l.state = .lapsing) :
    (l.stretch now).Ok := by
  obtain ⟨habsent, hleft, hexpiry, hbasis, hlapse, hgrant, hranges⟩ := h
  simp_all [Lease.Ok, Lease.stretch]

theorem Keeps.dropReturned (s : State) (n x : Node) : Keeps s (s.dropReturned n x) :=
  .foldl (fun s _ => .ite (fun _ => (Keeps.returnSlot s n _ _).trans (.setMember _ _ _ _)) (fun _ => .refl s)) _ s

theorem Keeps.ownerReturned (x : Node) (s : State) : Keeps s (ownerReturned x s) := by
  unfold Machine.ownerReturned
  dsimp only
  refine .ite (fun _ => ?_) (fun _ => .refl s)
  exact (Keeps.dropReturned s _ x).trans (.ite (fun _ => .endBatch _ _ _) (fun _ => .refl _))

theorem Keeps.cancelMembers (s : State) (n : Node) : Keeps s (s.cancelMembers n) :=
  .foldl (fun s _ => .ite (fun _ => (Keeps.returnSlot s n _ _).trans (.setMember _ _ _ _)) (fun _ => .refl s)) _ s

theorem Keeps.cancelBatch (n : Node) (o : BatchOutcome) (s : State) : Keeps s (cancelBatch n o s) :=
  (Keeps.cancelMembers s n).trans (.endBatch n o _)

theorem Keeps.claimantLost (n : Node) (s : State) : Keeps s (claimantLost n s) :=
  .ite (fun _ => .cancelBatch n _ s) (fun _ => .refl s)

theorem Keeps.tellReturned (s : State) (n : Node) (before after : Lease) :
    Keeps s (s.tellReturned n before after) := by
  unfold State.tellReturned
  split
  · exact .ite (fun _ => .raise _ _ _ _) (fun _ => .refl s)
  · exact .refl s

theorem Keeps.heartbeat (n : Node) (id : BitVec 16) (period miss : Nat) (fast : Bool) (s : State) :
    Keeps s (heartbeat n id period miss fast s) :=
  (((Keeps.setLease fun _ => Lease.beat_ok _ _ _ _ _ _).trans (.reply _ n id _ _ _)).trans
    (.tellReturned _ n _ _)).trans (.ownerReturned n _)

theorem Keeps.lapse {s : State} {n : Node} (h : (s.lease n).state = .live) : Keeps s (lapse n s) := by
  have hlease : Keeps s (s.setLease n { s.lease n with state := .lapsing, lapse := none }) :=
    .setLease fun hok => Lease.lapsing_ok hok h
  unfold Machine.lapse
  dsimp only
  split
  · exact hlease.trans (.raise _ _ _ _)
  · exact hlease

theorem Keeps.expire {s : State} {n : Node} (h : s.live n = true) : Keeps s (expire n s) :=
  ((((Keeps.setLease fun hok => Lease.expired_ok hok ((s.live_iff n).1 h)).trans (.raise _ _ _ _)).trans
    (.claimantLost n _)).trans (.trigger n _)).trans (.endSweepOf n _ _)

theorem Keeps.leaveLive (n : Node) (s : State) : Keeps s (leaveLive n s) := by
  have hended := (((Keeps.setLease (s := s) (n := n) Lease.left_ok).trans
    (.raise _ n.partner none (.partnerExpired .left ((s.lease n).grant.map Grant.lastHeartbeat)))).trans
      (.claimantLost n _)).trans (.endSweepOf n .leaseLost _)
  exact hended.trans (.ite (fun _ => .refl _) (fun _ => .trigger n _))

theorem Keeps.leave (n : Node) (s : State) : Keeps s (leave n s) := by
  refine .ite (fun _ => .leaveLive n s) (fun h => .setLease fun hok => Lease.leaveEnded_ok hok ?_)
  exact fun hs => h ((s.live_iff n).2 hs)

theorem Keeps.fastExpire (n : Node) (s : State) : Keeps s (fastExpire n s) :=
  .ite (fun h => .expire (Bool.and_eq_true_iff.1 h).2) (fun _ => .refl s)

theorem Keeps.linkLost (n : Node) (s : State) : Keeps s (linkLost n s) :=
  ((Keeps.losePort n s).trans (.fastExpire n _)).trans (.endSweepOf n _ _)

theorem Keeps.stretchLease (s : State) (n : Node) : Keeps s (s.stretchLease n) :=
  .ite (fun h => .setLease fun hok => Lease.stretch_ok hok _
    ((s.live_iff n).1 (Bool.and_eq_true_iff.1 h).1)) (fun _ => .refl s)

theorem Keeps.referenceLost (s : State) : Keeps s (referenceLost s) :=
  (((Keeps.setTime s _).trans (.stretchLease _ .a)).trans (.stretchLease _ .b)).trans (.raiseBoth _ _ _)

theorem Keeps.tellNeverSeen (s : State) (n : Node) : Keeps s (s.tellNeverSeen n) :=
  .ite (fun _ => .raise _ _ _ _) (fun _ => .refl s)

theorem Keeps.triggerIfAbsent (n : Node) (s : State) : Keeps s (triggerIfAbsent n s) :=
  .ite (fun _ => .trigger n s) (fun _ => .refl s)

theorem Keeps.graceEnd (s : State) : Keeps s (graceEnd s) :=
  (((((Keeps.setTime s _).trans (.raiseBoth _ _ _)).trans (.tellNeverSeen _ .a)).trans
    (.tellNeverSeen _ .b)).trans (.triggerIfAbsent .a _)).trans (.triggerIfAbsent .b _)

/-! ### Slots (R6 to R17) -/

theorem quotaOf_le (q : Byte) : quotaOf q ≤ 32 := min_le_left _ _

theorem Keeps.setSlotRequest (n : Node) (id : BitVec 16) (i : Slot) (p : Policy) (qa qb : Byte) (s : State) :
    Keeps s (setSlotRequest n id i p qa qb s) := by
  refine (Keeps.setSlot ?_ ?_).trans (.reply _ n id _ _ _)
  · exact fun h => h
  · rintro - (_ | _)
    · exact quotaOf_le qa
    · exact quotaOf_le qb

/-- A request joins the awaiting-reply set of a port that is UP (R155). -/
theorem Keeps.awaitReply {s : State} {n : Node} (h : (s.port n).state = .up) (id : BitVec 16) (i : Slot) :
    Keeps s (s.awaitReply n id i) :=
  .setPort fun _ hd => by cases h.symm.trans hd

theorem Keeps.claimFree {s : State} {n : Node} (h : (s.port n).state = .up) (id : BitVec 16) (i : Slot) :
    Keeps s (claimFree n id i s) :=
  (Keeps.awaitReply h id i).trans (.startCommit i _ _ _)

theorem Keeps.enterHandover (i : Slot) (o : Owner) (p : CommitPath) (k : Nat) (s : State) :
    Keeps s (enterHandover i o p k s) :=
  .ite (fun _ => .startCommit i o p s) (fun _ => .setSlot (fun _ => SlotRec.handing_ok _ o _) (fun h => h))

theorem Keeps.giveSlots (n : Node) (o : Owner) (p : CommitPath) (is : List Slot) (s : State) :
    Keeps s (giveSlots n o p is s).1 := by
  induction is generalizing s with
  | nil => exact .refl s
  | cons i is ih =>
    unfold Machine.giveSlots
    dsimp only
    split
    · exact (Keeps.enterHandover i o p _ s).trans (ih _)
    · exact ih s

theorem Keeps.give (n : Node) (id : BitVec 16) (code : Byte) (o : Owner) (p : CommitPath) (mask : SlotMask)
    (s : State) : Keeps s (give n id code o p mask s) :=
  (Keeps.giveSlots n o p _ s).trans (.reply _ n id _ _ _)

/-! ### Batches and reports (R80 to R110) -/

theorem Keeps.takeJoin (s : State) (n : Node) (i : Slot) : Keeps s (s.takeJoin n i) :=
  (Keeps.ite (fun _ => .refl s) (fun _ => .createBatch s n _)).trans (.join _ n i)

theorem Keeps.takeSlots (n : Node) (is : List Slot) (s : State) : Keeps s (takeSlots n is s).1 := by
  induction is generalizing s with
  | nil => exact .refl s
  | cons i is ih =>
    exact (Keeps.ite (fun _ => .takeJoin s n i) (fun _ => .refl s)).trans (ih _)

theorem Keeps.take (n : Node) (id : BitVec 16) (mask : SlotMask) (s : State) : Keeps s (take n id mask s) :=
  ((Keeps.takeSlots n _ s).trans (.ite (fun _ => .gather n _) (fun _ => .refl _))).trans (.reply _ n id _ _ _)

theorem Keeps.cancelTake (n : Node) (id : BitVec 16) (s : State) : Keeps s (cancelTake n id s) := by
  unfold Machine.cancelTake
  dsimp only
  split
  · exact (Keeps.cancelBatch n _ s).trans (.reply _ n id _ _ _)
  · exact .reply s n id _ _ _
  · exact .reply s n id _ _ _

theorem clampTo_range {lo hi : Nat} (h : lo ≤ hi) (x : Nat) : lo ≤ clampTo lo hi x ∧ clampTo lo hi x ≤ hi := by
  unfold clampTo
  omega

/-- R80: the settings of a SET_TIMING are in their ranges. -/
theorem timingOf_ok (w b p c l : BitVec 32) : (timingOf w b p c l).Ok :=
  ⟨(clampTo_range (by decide) _).2, clampTo_range (by decide) _, (clampTo_range (by decide) _).2,
    clampTo_range (by decide) _, clampTo_range (by decide) _⟩

theorem Keeps.withTiming (s : State) {t : Timing} (h : t.Ok) : Keeps s { s with timing := t } where
  pending := rfl
  power := rfl
  slots := id
  leases := id
  engines := id
  windows := id
  owned := id
  bays := id
  notices := id
  ports := id
  store := id
  timing _ := h

theorem Keeps.setTiming (n : Node) (id : BitVec 16) (w b p c l : BitVec 32) (s : State) :
    Keeps s (setTiming n id w b p c l s) :=
  (Keeps.withTiming s (timingOf_ok w b p c l)).trans (.reply _ n id _ _ _)

theorem Keeps.readReport (n : Node) (id : BitVec 16) (i : Slot) (first : Nat) (s : State) :
    Keeps s (readReport n id i first s) := by
  unfold Machine.readReport
  split
  · exact .reply s n id _ _ _
  · exact (Keeps.setReport s i _).trans (.reply _ n id _ _ _)

/-! ### Windows (R69 to R72) -/

/-- R69: a SET_WINDOW that is taken comes from the owner of its slot. -/
theorem judgeSetWindow_done {n : Node} {k : Fin 4} {i : Slot} {s : State}
    (h : judgeSetWindow n k i s = .done) : (s.slot i).owner = some n := by
  unfold judgeSetWindow at h
  dsimp only at h
  by_contra hne
  simp only [hne, ne_eq, not_false_eq_true, decide_true, Bool.or_true, if_true] at h
  split at h
  · cases h
  · split at h <;> cases h

theorem Keeps.setWindowRequest {n : Node} {id : BitVec 16} {k : Fin 4} {i : Slot} {first last : Lba}
    {kind : WindowKind} {s : State} (hrange : first.toNat ≤ last.toNat) (howner : (s.slot i).owner = some n) :
    Keeps s (Machine.setWindow n id k i first last kind s) := by
  refine (Keeps.setWindow ?_ ?_).trans (.reply _ n id _ _ _)
  · exact fun _ => ⟨by rintro a ⟨rfl⟩; exact ⟨hrange, rfl⟩, fun hn => by cases hn⟩
  · rintro - a ⟨rfl⟩
    simp [howner]

/-- A cleared window is not ACTIVE. -/
theorem Window.clear_active (w : Window) (c : ClearCause) : (w.clear c).active = none := by
  unfold Window.clear
  split
  · rfl
  · assumption

theorem Keeps.clearWindow (n : Node) (id : BitVec 16) (k : Fin 4) (s : State) :
    Keeps s (clearWindow n id k s) := by
  unfold Machine.clearWindow
  dsimp only
  split
  · exact .reply s n id _ _ _
  · split
    · refine (Keeps.setWindow (Window.clear_ok _) ?_).trans (.reply _ n id _ _ _)
      intro _ a ha
      cases (Window.clear_active _ _).symm.trans ha
    · exact .reply s n id _ _ _

/-! ### Audit and notices (R131 to R149) -/

theorem Keeps.startSweep (n : Node) (first last : Slot) (m : AuditMode) (b : Byte) (s : State) :
    Keeps s (startSweep n first last m b s) :=
  ((Keeps.endSweepOf n .restarted s).trans (.setSweep _ _)).trans (.handleSlot first _)

theorem NoticeQueue.fetch_ok {b : Bool} {q : NoticeQueue} (h : q.Ok b) : q.fetch.Ok b := by
  obtain ⟨hlen, hoff, hatt⟩ := h
  refine ⟨?_, fun hq => ?_, fun hb => ?_⟩
  · simp only [NoticeQueue.fetch, List.length_drop]
    omega
  · simp [NoticeQueue.fetch, hoff hq]
  · have hatt := hatt hb
    simp only [NoticeQueue.fetch, Bool.and_eq_true, hatt, Bool.not_eq_true', List.isEmpty_eq_false_iff]
    exact ⟨fun h => ⟨h.1.1, h.2⟩, fun h => ⟨⟨h.1, fun hnil => h.2 (by rw [hnil]; rfl)⟩, h.2⟩⟩

/-- R147: a fetch that takes a notice out leaves a place. -/
theorem NoticeQueue.fetch_hasPlace {b : Bool} {q : NoticeQueue} (h : q.Ok b)
    (hne : (q.queue.take 8).isEmpty = false) : q.fetch.hasPlace = true := by
  obtain ⟨hlen, hoff, -⟩ := h
  have hq : q.queue ≠ [] := by
    rintro hnil
    simp [hnil] at hne
  have hpos := List.length_pos_of_ne_nil hq
  have hon : q.on = true := by
    cases hb : q.on
    · exact absurd (hoff hb) hq
    · rfl
  simp only [NoticeQueue.hasPlace, NoticeQueue.fetch, hon, List.length_drop, Bool.true_and, decide_eq_true_eq]
  omega

theorem NoticeQueue.set_ok {b : Bool} {q : NoticeQueue} (h : q.Ok b) (on : Bool) (mask : BitVec 32) :
    (q.set on mask).Ok b := by
  obtain ⟨hlen, hoff, hatt⟩ := h
  cases on <;> cases hq : q.on <;> simp_all [NoticeQueue.Ok, NoticeQueue.set]

/-- R137, R147: a fetch that takes a notice out, and the held result in its place. -/
theorem Keeps.fetchThenPlace {s : State} {n : Node} (hne : ((s.notice n).queue.take 8).isEmpty = false) :
    Keeps s ((s.setNotice n (s.notice n).fetch).placeHeld n) := by
  have hfetch : Keeps s (s.setNotice n (s.notice n).fetch) := .setNotice NoticeQueue.fetch_ok
  unfold State.placeHeld
  split
  · rename_i r w _ _
    refine .ite (fun hheld => ?_) (fun _ => hfetch)
    obtain ⟨-, rfl⟩ := hheld
    have hplaced : (s.setNotice w.requester (s.notice w.requester).fetch).placeResult w r =
        (s.setNotice w.requester { (s.notice w.requester).fetch with
          queue := (s.notice w.requester).fetch.queue ++ [r.notice], attention := true }).setSweep
            { s.sweep with holder := none, state := .probing, run := some { w with issued := satInc w.issued } } := by
      simp [State.placeResult]
    rw [hplaced]
    exact (Keeps.setNotice fun h => NoticeQueue.place_ok _ (NoticeQueue.fetch_hasPlace h hne)
      (NoticeQueue.fetch_ok h)).trans (.setSweep _ _)
  · exact hfetch

theorem Keeps.fetchNotices (n : Node) (id : BitVec 16) (s : State) : Keeps s (fetchNotices n id s) := by
  unfold Machine.fetchNotices
  extract_lets out held fetched placed u v
  have hplaced : Keeps s u := by
    refine .ite (fun hp => .fetchThenPlace ?_) (fun _ => .setNotice NoticeQueue.fetch_ok)
    simpa only [Bool.not_eq_true'] using (Bool.and_eq_true_iff.1 hp).2
  have hreply : Keeps s v := hplaced.trans (.reply _ n id _ _ _)
  split
  · exact hreply.trans (.ite (fun _ => .walkOn _ _ _) (fun _ => .refl _))
  · exact hreply

theorem Keeps.setNotices (n : Node) (id : BitVec 16) (on : Bool) (mask : BitVec 32) (s : State) :
    Keeps s (setNotices n id on mask s) :=
  ((Keeps.setNotice fun h => NoticeQueue.set_ok h on mask).trans
    (.ite (fun _ => .endSweepOf n _ _) (fun _ => .refl _))).trans (.reply _ n id _ _ _)

theorem Keeps.readSummary (n : Node) (id : BitVec 16) (s : State) : Keeps s (readSummary n id s) := by
  refine (Keeps.setNotice ?_).trans (.reply _ n id _ _ _)
  exact fun h => h

/-! ### Bays (R112 to R128) -/

theorem Keeps.changePresence (i : Slot) (level : Bool) (s : State) : Keeps s (changePresence i level s) :=
  .ite (fun _ => .refl s)
    (fun _ => .ite (fun _ => .setBay fun h => h) (fun _ => .setBay fun h => h))

/-- R115, R117: a drive inserted at an EMPTY bay. -/
theorem Bay.inserted_ok {b : Bay} (h : b.Ok) (hs : b.state = .empty) (now : Tick) :
    (({ b with present := true, debounce := none } : Bay).bringUp now).Ok := by
  obtain ⟨hcap, hpres, hbring, hreset, hcause, hpresent, hawaits⟩ := h
  simp_all [Bay.Ok, Bay.bringUp]

theorem Keeps.insert {s : State} {i : Slot} (h : (s.bay i).state = .empty) : Keeps s (insert i s) :=
  (Keeps.setBay fun hb => Bay.inserted_ok hb h _).trans (.raiseBoth _ _ _)

/-- R116: an EMPTY bay has none of the optional fields. -/
theorem Bay.emptied_ok (b : Bay) : ({ b.forget with
    state := .empty, present := false, debounce := none, bringupDeadline := none, resetDeadline := none
    resetCause := none, awaits := .nothing, linkHeld := false } : Bay).Ok := by
  simp [Bay.Ok, Bay.forget]

theorem Keeps.emptyBay (s : State) (i : Slot) : Keeps s (s.emptyBay i) := by
  unfold State.emptyBay
  refine ((((Keeps.endTagsByRemoval s i).trans (.withdraw _ i _)).trans (Keeps.setEngine ?_)).trans
    (Keeps.setBay ?_)).trans (.raiseBoth _ _ _)
  · exact fun h => h.same rfl rfl
  · exact fun _ => Bay.emptied_ok _

theorem Keeps.remove (i : Slot) (s : State) : Keeps s (remove i s) :=
  (((Keeps.emptyBay s i).trans (.handingCheck i _)).trans (.drainCheck i _)).trans
    (.ite (fun _ => .settleProbe i _ _ _ _) (fun _ => .refl _))

/-- R117, R121: what a bay awaits goes on from the ready signal to the identity. -/
theorem Bay.awaiting_ok {b : Bay} (h : b.Ok) {a : Awaits} (ha : a ≠ .nothing)
    (hs : b.awaits ≠ .nothing ∨ b.state = .bringup ∨ b.state = .resetting) :
    ({ b with awaits := a } : Bay).Ok := by
  obtain ⟨hcap, hpres, hbring, hreset, hcause, hpresent, hawaits⟩ := h
  exact ⟨hcap, hpres, hbring, hreset, hcause, hpresent, fun _ => hs.elim hawaits.1 id, fun _ => ha⟩

theorem Keeps.driveReady (i : Slot) (s : State) : Keeps s (driveReady i s) :=
  .ite (fun ha => (Keeps.setBay fun h => Bay.awaiting_ok h (by decide) (.inl (by simp [ha]))).trans (.toDrive _ i _))
    (fun _ => .refl s)

theorem Keeps.identifyAnswer (i : Slot) (st : BitVec 16) (fp : Fingerprint) (cap : Lba) (s : State) :
    Keeps s (identifyAnswer i st fp cap s) := by
  unfold Machine.identifyAnswer
  refine .ite (fun ha => .ite (fun _ => ?_) (fun _ => ?_)) (fun _ => .refl s)
  · exact (((Keeps.identityTaken s i fp cap ha).trans (.handingCheck i _)).trans (.drainCheck i _)).trans
      (.arbiter _ i)
  · refine (Keeps.setBay ?_).trans (.toDrive _ i _)
    exact fun h => h

theorem Keeps.driveLinkLoss (i : Slot) (s : State) : Keeps s (driveLinkLoss i s) := by
  have hreset : Keeps s (Machine.linkReset i .linkLoss
      (s.setBay i { s.bay i with linkLosses := satInc (s.bay i).linkLosses })) := by
    refine (Keeps.setBay ?_).trans (.linkReset i _ _)
    exact fun h => h
  unfold Machine.driveLinkLoss
  dsimp only
  split
  · exact hreset
  · exact hreset
  · rename_i hs
    exact .setBay fun h => Bay.awaiting_ok h (by decide) (.inr (.inl hs))
  · rename_i hs
    exact .setBay fun h => Bay.awaiting_ok h (by decide) (.inr (.inr hs))
  all_goals exact .refl s

theorem Keeps.bringupFails {s : State} {i : Slot} (h : (s.bay i).state = .bringup) :
    Keeps s (bringupFails i s) := by
  refine (Keeps.setBay ?_).trans (.raiseBoth _ _ _)
  exact fun hb => (show (s.bay i).fail.Ok from Bay.fail_ok hb (.inl h))

theorem Keeps.resetFails {s : State} {i : Slot} (h : (s.bay i).state = .resetting) :
    Keeps s (resetFails i s) := by
  unfold Machine.resetFails
  refine (((((Keeps.setBay ?_).trans (.withdraw _ i _)).trans (Keeps.setBay ?_)).trans
    (.raiseBoth _ _ _)).trans (.handingCheck i _)).trans (.drainCheck i _)
  · exact fun hb => Bay.fail_ok hb (.inr h)
  · exact fun hb => hb

theorem Keeps.drainExpires (i : Slot) (s : State) : Keeps s (drainExpires i s) := by
  unfold Machine.drainExpires
  split
  · exact .ite (fun _ => (Keeps.linkReset i _ s).trans (.raise _ _ _ _)) (fun _ => .refl s)
  · exact .refl s

/-- R19: the drain deadline of a slot that is not DRAINING is removed. -/
theorem SlotRec.noDeadline_ok {r : SlotRec} (h : r.Ok) (hp : r.phase ≠ .draining) :
    ({ r with drainDeadline := none } : SlotRec).Ok := by
  obtain ⟨htarget, hpath, hbatch, -, -, howner⟩ := h
  exact ⟨htarget, hpath, hbatch, by simp, fun hd => absurd hd hp, howner⟩

theorem Keeps.handingExpires {s : State} {i : Slot} (hphase : (s.slot i).phase = .handing) :
    Keeps s (handingExpires i s) := by
  refine (Keeps.setSlot ?_ ?_).trans (.linkReset i _ _)
  · exact fun hr => SlotRec.noDeadline_ok hr (by simp [hphase])
  · exact fun hq => hq

theorem Keeps.driveCompletion (i : Slot) (tag : Nat) (st : BitVec 16) (fp : Fingerprint) (cap : Lba)
    (s : State) : Keeps s (driveCompletion i tag st fp cap s) := by
  unfold Machine.driveCompletion
  split
  · exact .completeActive i _ _ st s
  · exact .completeOrphan i _ _ st s
  · exact .completeProbe i _ _ st fp cap s
  · exact .setEngine fun h => h.same rfl rfl

theorem Keeps.driveData (i : Slot) (tag : Nat) (p : List Byte) (s : State) :
    Keeps s (driveData i tag p s) := by
  have hdrop : Keeps s (s.setEngine i { s.engine i with
      droppedFromDrive := satInc (s.engine i).droppedFromDrive }) := .setEngine fun h => h.same rfl rfl
  unfold Machine.driveData
  dsimp only
  split
  · exact .ite (fun _ => .sendData s _ i _ p) (fun _ => hdrop)
  · exact hdrop

theorem Keeps.probeExpires (s : State) : Keeps s (probeExpires s) := by
  unfold Machine.probeExpires
  split
  · exact .ite (fun _ => (Keeps.releaseProbe s).trans (.settleProbe _ _ _ _ _)) (fun _ => .refl s)
  · exact .refl s

/-- R125: a bay that may be held is READY or SUSPECT. -/
theorem judgeHold_done {n : Node} {i : Slot} {s : State} (h : judgeHold n i s = .done) :
    (s.bay i).state = .ready ∨ (s.bay i).state = .suspect := by
  rw [← Bay.resettable_iff]
  by_contra hno
  rw [Bool.not_eq_true] at hno
  unfold judgeHold at h
  simp only [hno, Bool.not_false, if_true] at h
  repeat' split at h
  all_goals cases h

theorem Bay.held_ok {b : Bay} (h : b.Ok) (hs : b.state = .ready ∨ b.state = .suspect) :
    ({ b.forget with state := .held, linkHeld := true } : Bay).Ok := by
  obtain ⟨hcap, hpres, hbring, hreset, hcause, hpresent, hawaits⟩ := h
  rcases hs with hs | hs <;> simp_all [Bay.Ok, Bay.forget]

theorem Keeps.holdBay {s : State} {i : Slot} (h : (s.bay i).state = .ready ∨ (s.bay i).state = .suspect) :
    Keeps s (s.holdBay i) :=
  (Keeps.setEngine fun he => Engine.filter_ok _ he).trans (.setBay fun hb => Bay.held_ok hb h)

/-- R126: a bay that may be brought up is in the state the request asks for. -/
theorem judgeBringUp_done {want : BayState} {n : Node} {i : Slot} {s : State}
    (h : judgeBringUp want n i s = .done) : (s.bay i).state = want := by
  unfold judgeBringUp at h
  by_contra hno
  simp only [hno, ne_eq, not_false_eq_true, if_true] at h
  repeat' split at h
  all_goals cases h

theorem Keeps.bringUpRequest {want : BayState} (hw : want = .held ∨ want = .failed) (code : Byte) (n : Node)
    (id : BitVec 16) (i : Slot) (s : State) : Keeps s (bringUpRequest want code n id i s) := by
  unfold Machine.bringUpRequest
  refine (Keeps.ite (fun hj => .setBay fun hb => Bay.bringUp_ok _ hb ?_) (fun _ => .refl s)).trans
    (.reply _ n id _ _ _)
  rw [judgeBringUp_done hj]
  exact hw

/-- R127: a bay whose drive may be adopted is SUSPECT. -/
theorem judgeAdopt_done {n : Node} {i : Slot} {s : State} (h : judgeAdopt n i s = .done) :
    (s.bay i).state = .suspect := by
  unfold judgeAdopt at h
  by_contra hno
  simp only [hno, ne_eq, not_false_eq_true, if_true] at h
  repeat' split at h
  all_goals cases h

theorem Bay.adopted_ok {b : Bay} (h : b.Ok) (hs : b.state = .suspect) :
    ({ b with state := .ready, recorded := b.presented, presented := none } : Bay).Ok := by
  obtain ⟨hcap, hpres, hbring, hreset, hcause, hpresent, hawaits⟩ := h
  simp_all [Bay.Ok]

theorem Keeps.adoptDrive {s : State} {i : Slot} (h : (s.bay i).state = .suspect) :
    Keeps s (s.adoptDrive i) :=
  ((Keeps.setBay fun hb => Bay.adopted_ok hb h).trans (.queueUpdate _ i false)).trans (.arbiter _ i)

/-! ### The store (R160, R161) -/

theorem Keeps.completeUpdate (b : Bool) (u : Update) (s : State) : Keeps s (completeUpdate b u s) :=
  .ite (fun _ => .commitDone u.slot b s) (fun _ => .refl s)

theorem Keeps.storeReady (s : State) : Keeps s s.storeReady :=
  .setStore fun h => Store.kick_ok h.1 trivial

theorem Keeps.writeDone (s : State) : Keeps s (writeDone s) := by
  unfold Machine.writeDone
  split
  · refine .ite (fun _ => ((Keeps.setStore ?_).trans (.completeUpdate true _ _)).trans (.storeReady _))
      (fun _ => .refl s)
    exact fun h => h
  · exact .refl s

theorem Keeps.storeFails (u : Update) (s : State) : Keeps s (storeFails u s) :=
  ((Keeps.setStore fun _ => by simp [Store.Ok]).trans (.raiseBoth _ _ _)).trans
    (.foldl (fun s v => .completeUpdate false v s) _ _)

theorem Keeps.writeFailed (s : State) : Keeps s (writeFailed s) := by
  unfold Machine.writeFailed
  split
  · rename_i u k d hmode
    refine .ite (fun _ => .ite (fun hk => .setStore fun h => ⟨h.1, ?_⟩) (fun _ => .storeFails _ s))
      (fun _ => .refl s)
    obtain ⟨-, hrange⟩ := h
    rw [hmode] at hrange
    exact ⟨by omega, by omega⟩
  · exact .refl s

/-! ### Every command but those of power -/

/-- A command that is no event of power or reset answers a next state that keeps every record in order. -/
theorem exec_keeps {c : Instr} {s t : State} (hc : c.ofPower = false) (h : exec c s = .next t) :
    Keeps s t := by
  cases c with
  | cmd n i tag kind gen lba count => exact .of_next h (.whenUp fun _ => .command n i tag kind gen lba count s)
  | data n i tag p => exact .of_next h (.whenUp fun _ => .relayData n i tag p s)
  | crcCheckFailed n f => exact .of_next h (.whenTrue fun _ => .countCheckError n s)
  | protocolFault n f =>
    refine .of_next h (.whenUp fun _ => ?_)
    split
    · exact .ite (fun _ => .haltPort n _ f s) (fun _ => .refl s)
    · exact .refl s
  | haltedFrameDiscard n f => exact .of_next h (.refl s)
  | badRequest n f => exact .of_next h (.whenUp fun _ => .whenTrue fun _ => .reply s n _ _ _ _)
  | identify n id => exact .of_next h (.whenUp fun _ => .reply s n id _ _ _)
  | resume n id => exact .of_next h (.whenRunning fun _ => .resume n id s)
  | linkStatus n id =>
    refine .of_next h (.whenUp fun _ => (Keeps.setPort ?_).trans (.reply _ n id _ _ _))
    exact fun hp => hp
  | heartbeat n id p m f =>
    refine .of_next h (.whenUp fun _ => ?_)
    split
    · exact .ite (fun _ => .reply s n id _ _ _) (fun _ => .heartbeat n id _ _ _ s)
    · exact .reply s n id _ _ _
  | leave n id => exact .of_next h (.whenUp fun _ => (Keeps.reply s n id _ _ _).trans (.leave n _))
  | slotStatus n id i => exact .of_next h (.whenUp fun _ => .reply s n id _ _ _)
  | claimFree n id i =>
    exact .of_next h (.whenUp fun ht => .ite (fun _ => .claimFree ht.2 id i) (fun _ => .reply s n id _ _ _))
  | release n id mask =>
    exact .of_next h (.whenUp fun _ => .ite (fun _ => .reply s n id _ _ _)
      (fun _ => .ite (fun _ => .reply s n id _ _ _) (fun _ => .give n id _ _ _ mask s)))
  | handover n id mask =>
    exact .of_next h (.whenUp fun _ => .ite (fun _ => .reply s n id _ _ _)
      (fun _ => .ite (fun _ => .reply s n id _ _ _)
        (fun _ => .ite (fun _ => .reply s n id _ _ _) (fun _ => .give n id _ _ _ mask s))))
  | setSlot n id i p qa qb =>
    refine .of_next h (.whenUp fun _ => ?_)
    split
    · exact .reply s n id _ _ _
    · exact .ite (fun _ => .setSlotRequest n id i _ qa qb s) (fun _ => .reply s n id _ _ _)
  | hold n id i =>
    exact .of_next h (.whenUp fun _ => (Keeps.ite (fun hj => .holdBay (judgeHold_done hj))
      (fun _ => .refl s)).trans (.reply _ n id _ _ _))
  | unhold n id i => exact .of_next h (.whenUp fun _ => .bringUpRequest (.inl rfl) _ n id i s)
  | adopt n id i =>
    exact .of_next h (.whenUp fun _ => .ite
      (fun hj => (Keeps.adoptDrive (judgeAdopt_done hj)).trans (.reply _ n id _ _ _))
      (fun _ => .reply s n id _ _ _))
  | clearFault n id i => exact .of_next h (.whenUp fun _ => .bringUpRequest (.inr rfl) _ n id i s)
  | resetDrive n id i =>
    exact .of_next h (.whenUp fun _ => .ite
      (fun _ => (Keeps.linkReset i _ s).trans (.reply _ n id _ _ _)) (fun _ => .reply s n id _ _ _))
  | take n id mask =>
    exact .of_next h (.whenUp fun _ => .ite (fun _ => .reply s n id _ _ _)
      (fun _ => .ite (fun _ => .reply s n id _ _ _)
        (fun _ => .ite (fun _ => .reply s n id _ _ _) (fun _ => .take n id mask s))))
  | cancelTake n id => exact .of_next h (.whenUp fun _ => .cancelTake n id s)
  | batchStatus n id w =>
    refine .of_next h (.whenUp fun _ => ?_)
    split <;> exact .reply s n id _ _ _
  | setTiming n id w b p c l =>
    exact .of_next h (.whenUp fun _ => .ite (fun _ => .setTiming n id w b p c l s)
      (fun _ => .reply s n id _ _ _))
  | readReport n id i first =>
    exact .of_next h (.whenUp fun _ => .ite (fun _ => .reply s n id _ _ _)
      (fun _ => .readReport n id i _ s))
  | discardReport n id i =>
    exact .of_next h (.whenUp fun _ => (Keeps.ite (fun _ => .setReport s i none) (fun _ => .refl s)).trans
      (.reply _ n id _ _ _))
  | setWindow n id index i first last kind =>
    refine .of_next h (.whenUp fun _ => ?_)
    split
    · exact .ite (fun _ => .reply s n id _ _ _) (fun hrange => .ite
        (fun hj => .setWindowRequest (Nat.le_of_not_lt hrange) (judgeSetWindow_done hj))
        (fun _ => .reply s n id _ _ _))
    · exact .reply s n id _ _ _
  | clearWindow n id index =>
    refine .of_next h (.whenUp fun _ => ?_)
    split
    · exact .reply s n id _ _ _
    · exact .ite (fun _ => .clearWindow n id _ s) (fun _ => .reply s n id _ _ _)
  | windowStatus n id => exact .of_next h (.whenUp fun _ => .reply s n id _ _ _)
  | startAudit n id first last mode budget =>
    refine .of_next h (.whenUp fun _ => ?_)
    split
    · exact .reply s n id _ _ _
    · exact .ite (fun _ => (Keeps.startSweep n first last _ budget s).trans (.reply _ n id _ _ _))
        (fun _ => .reply s n id _ _ _)
  | stepAudit n id =>
    refine .of_next h (.whenUp fun _ => .ite (fun _ => .reply s n id _ _ _) (fun _ => ?_))
    split
    · exact (Keeps.handleSlot _ s).trans (.reply _ n id _ _ _)
    · exact .reply s n id _ _ _
  | stopAudit n id =>
    exact .of_next h (.whenUp fun _ => .ite (fun _ => (Keeps.endSweep _ s).trans (.reply _ n id _ _ _))
      (fun _ => .reply s n id _ _ _))
  | auditStatus n id => exact .of_next h (.whenUp fun _ => .reply s n id _ _ _)
  | fetchNotices n id => exact .of_next h (.whenUp fun _ => .fetchNotices n id s)
  | setNotices n id enable mask =>
    refine .of_next h (.whenUp fun _ => ?_)
    split
    · exact .setNotices n id _ mask s
    · exact .reply s n id _ _ _
  | readSummary n id => exact .of_next h (.whenUp fun _ => .readSummary n id s)
  | storeStatus n id => exact .of_next h (.whenUp fun _ => .reply s n id _ _ _)
  | driveCompletion i tag st fp cap => exact .of_next h (.whenRunning fun _ => .driveCompletion i tag st fp cap s)
  | driveDataFrame i tag p => exact .of_next h (.whenRunning fun _ => .driveData i tag p s)
  | driveReady i => exact .of_next h (.whenRunning fun _ => .driveReady i s)
  | identifyAnswer i st fp cap => exact .of_next h (.whenRunning fun _ => .identifyAnswer i st fp cap s)
  | driveLinkLoss i => exact .of_next h (.whenRunning fun _ => .driveLinkLoss i s)
  | presenceChange i level => exact .of_next h (.changePresence i level s)
  | insertion i =>
    exact .of_next h (.whenRunning fun _ => .whenTrue fun hg =>
      .insert (of_decide_eq_true (Bool.and_eq_true_iff.1 hg).2))
  | removal i => exact .of_next h (.whenRunning fun _ => .whenTrue fun _ => .remove i s)
  | linkTrainingComplete n => exact .of_next h (.whenRunning fun _ => .whenTrue fun _ => .trained n s)
  | nodeLinkLoss n => exact .of_next h (.whenTrue fun _ => .linkLost n s)
  | tick => exact .of_next h (.whenRunning fun _ => (Keeps.setTime s _).trans (.measure _))
  | referenceLost => exact .of_next h (.whenRunning fun _ => .whenTrue fun _ => .referenceLost s)
  | referenceQualified => exact .of_next h (.whenRunning fun _ => .whenTrue fun _ => .setTime s _)
  | referenceRegained =>
    exact .of_next h (.whenRunning fun _ => .whenTrue fun _ => (Keeps.setTime s _).trans (.raiseBoth _ _ _))
  | lapseDeadline n =>
    exact .of_next h (.whenRunning fun _ => .whenTrue fun hg =>
      .lapse (of_decide_eq_true (Bool.and_eq_true_iff.1 hg).1))
  | expiryDeadline n =>
    exact .of_next h (.whenRunning fun _ => .whenTrue fun hg => .expire (Bool.and_eq_true_iff.1 hg).1)
  | graceEnd => exact .of_next h (.whenRunning fun _ => .whenTrue fun _ => .graceEnd s)
  | gatherDeadline n => exact .of_next h (.whenRunning fun _ => .whenTrue fun _ => .runBatch n s)
  | drainDeadline i => exact .of_next h (.whenRunning fun _ => .whenTrue fun _ => .drainExpires i s)
  | handingDrainDeadline i =>
    exact .of_next h (.whenRunning fun _ => .whenTrue fun hg =>
      .handingExpires (of_decide_eq_true (Bool.and_eq_true_iff.1 hg).1))
  | bringupDeadline i =>
    exact .of_next h (.whenRunning fun _ => .whenTrue fun hg =>
      .bringupFails (of_decide_eq_true (Bool.and_eq_true_iff.1 hg).1))
  | resetDeadline i =>
    exact .of_next h (.whenRunning fun _ => .whenTrue fun hg =>
      .resetFails (of_decide_eq_true (Bool.and_eq_true_iff.1 hg).1))
  | probeDeadline => exact .of_next h (.whenRunning fun _ => .probeExpires s)
  | storeWriteDone => exact .of_next h (.whenRunning fun _ => .writeDone s)
  | storeWriteFailed => exact .of_next h (.whenRunning fun _ => .writeFailed s)
  | resetAssert => cases hc
  | resetRelease => cases hc
  | powerOn => cases hc
  | powerFail => cases hc

end Sys2Proof.Machine
end

section
/-! The slot, bay and lease records at reset, at start-up and along every step (R1, R24, R112). -/

namespace Sys2Proof.Machine

/-- The slot, bay and lease records of `t` are in order where those of `s` are. -/
structure KeepsRecords (s t : State) : Prop where
  slots : SlotsOk s → SlotsOk t
  bays : BaysOk s → BaysOk t
  leases : LeasesOk s → LeasesOk t

theorem Keeps.records {s t : State} (h : Keeps s t) : KeepsRecords s t := ⟨h.slots, h.bays, h.leases⟩

theorem KeepsRecords.trans {s t u : State} (h : KeepsRecords s t) (k : KeepsRecords t u) : KeepsRecords s u :=
  ⟨k.slots ∘ h.slots, k.bays ∘ h.bays, k.leases ∘ h.leases⟩

theorem KeepsRecords.of_eq {s t : State} (hs : t.slots = s.slots) (hb : t.bays = s.bays)
    (hl : t.leases = s.leases) : KeepsRecords s t where
  slots h i := by
    unfold State.slot
    rw [hs]
    exact h i
  bays h i := by
    unfold State.bay
    rw [hb]
    exact h i
  leases h n := by
    unfold State.lease
    rw [hl]
    exact h n

/-! ### Power and the reset input (R2, R112, R160, R163) -/

theorem KeepsRecords.resolveWrite (s : State) : KeepsRecords s s.resolveWrite := by
  unfold State.resolveWrite
  split <;> exact .of_eq rfl rfl rfl

theorem KeepsRecords.silence (s : State) : KeepsRecords s s.silence := .of_eq rfl rfl rfl

theorem holdLinks_bay (s : State) (i : Slot) : s.holdLinks.bay i = { s.bay i with linkHeld := true } :=
  tabulate_get _ i

theorem KeepsRecords.holdLinks (s : State) : KeepsRecords s s.holdLinks where
  slots := id
  bays h i := by
    rw [holdLinks_bay]
    exact h i
  leases := id

theorem Lease.initial_ok : Lease.initial.Ok := by simp [Lease.Ok, Lease.initial]

/-- R2: a restored slot rests. -/
theorem startSlot_ok (r : StoreRec) : (startSlot r).Ok := by
  cases h : r.restored.owner <;> simp [SlotRec.Ok, startSlot, SlotRec.initial, h]

/-- R112: a bay at start-up is EMPTY or in BRINGUP. -/
theorem startBay_ok (r : StoreRec) (input : Bool) : (startBay r input).Ok := by
  cases input <;> simp [Bay.Ok, startBay, Bay.initial]

theorem startUp_slot (s : State) (i : Slot) : (startUp s).slot i = startSlot s.resolveWrite.store.records[i] :=
  tabulate_get _ i

theorem startUp_bay (s : State) (i : Slot) :
    (startUp s).bay i = startBay s.resolveWrite.store.records[i] (s.resolveWrite.bay i).input :=
  tabulate_get _ i

theorem startUp_lease (s : State) (n : Node) : (startUp s).lease n = Lease.initial := by cases n <;> rfl

theorem KeepsRecords.startUp (s t : State) : KeepsRecords s (startUp t) where
  slots _ i := by
    rw [startUp_slot]
    exact startSlot_ok _
  bays _ i := by
    rw [startUp_bay]
    exact startBay_ok _ _
  leases _ n := by
    rw [startUp_lease]
    exact Lease.initial_ok

theorem KeepsRecords.assertReset (s : State) : KeepsRecords s (assertReset s) := by
  have hinput : KeepsRecords s (s.setResetInput true) := .of_eq rfl rfl rfl
  unfold Machine.assertReset
  dsimp only
  split
  · exact ((hinput.trans (.resolveWrite _)).trans (.silence _)).trans (.holdLinks _)
  · exact hinput

theorem KeepsRecords.releaseReset (s : State) : KeepsRecords s (releaseReset s) := by
  unfold Machine.releaseReset
  dsimp only
  split
  · exact .startUp s _
  · exact .of_eq rfl rfl rfl

theorem KeepsRecords.turnOn (s : State) : KeepsRecords s (turnOn s) := by
  unfold Machine.turnOn
  dsimp only
  split
  · exact (KeepsRecords.startUp s _).trans (.holdLinks _)
  · exact .startUp s _

theorem KeepsRecords.turnOff (s : State) : KeepsRecords s (turnOff s) := by
  unfold Machine.turnOff
  split
  · exact ((KeepsRecords.resolveWrite s).trans (.silence _)).trans (.of_eq rfl rfl rfl)
  · exact .of_eq rfl rfl rfl

/-! ### Every step -/

theorem exec_keepsRecords {c : Instr} {s t : State} (h : exec c s = .next t) : KeepsRecords s t := by
  cases hc : c.ofPower with
  | false => exact (exec_keeps hc h).records
  | true =>
    cases c with
    | resetAssert => cases h; exact .assertReset s
    | resetRelease => cases h; exact .releaseReset s
    | powerOn => cases h; exact .turnOn s
    | powerFail => cases h; exact .turnOff s
    | _ => cases hc

theorem KeepsRecords.idle (s : State) : KeepsRecords s (idle s) := by
  unfold Machine.idle Machine.whenRunning
  split <;> exact .of_eq rfl rfl rfl

theorem step_keepsRecords {s t : State} (h : step s = .next t) : KeepsRecords s t := by
  unfold step at h
  split at h
  · cases h
    exact .idle s
  · rename_i c rest _
    have htaken : KeepsRecords s { s with pending := rest } := .of_eq rfl rfl rfl
    exact htaken.trans (exec_keepsRecords h)

/-- Settles O6: each command keeps the records by the operations it is made of (`exec_keeps`), start-up
makes them anew, and the idle step does not touch them. -/
theorem stepKeepsSlotBayAndLeaseRecords : Obligations.StepKeepsSlotBayAndLeaseRecords :=
  ⟨fun _ _ h => ⟨(step_keepsRecords h).slots, (step_keepsRecords h).bays⟩,
    fun _ _ h => (step_keepsRecords h).leases⟩

/-! ### Reset -/

theorem reset_slot (i : Slot) : State.reset.slot i = SlotRec.initial := by
  fin_cases i <;> rfl

theorem reset_bay (i : Slot) : State.reset.bay i = Bay.initial := by
  fin_cases i <;> rfl

theorem reset_engine (i : Slot) : State.reset.engine i = Engine.initial := by
  fin_cases i <;> rfl

theorem reset_window (k : Fin 4) : State.reset.window k = Window.initial := by
  fin_cases k <;> rfl

theorem reset_lease (n : Node) : State.reset.lease n = Lease.initial := by cases n <;> rfl

theorem reset_notice (n : Node) : State.reset.notice n = NoticeQueue.initial := by cases n <;> rfl

theorem reset_port (n : Node) : State.reset.port n = Port.initial := by cases n <;> rfl

/-- The records of a reset block are in order. -/
theorem initialRecords_ok :
    SlotRec.initial.Ok ∧ Bay.initial.Ok ∧ Engine.initial.Ok ∧ Window.initial.Ok ∧
    (∀ b, NoticeQueue.initial.Ok b) ∧ Port.initial.Ok ∧ Timing.initial.Ok := by
  refine ⟨?_, ?_, ?_, ?_, fun b => ?_, ?_, ?_⟩
  · simp [SlotRec.Ok, SlotRec.initial]
  · simp [Bay.Ok, Bay.initial]
  · simp [Engine.Ok, Engine.initial, Engine.outstandingTags, Engine.outstanding, activeCommands]
  · simp [Window.Ok, Window.initial]
  · simp [NoticeQueue.Ok, NoticeQueue.initial]
  · exact fun _ => ⟨rfl, rfl⟩
  · simp [Timing.Ok, Timing.initial]

/-- Settles O5: record by record, each at its start-up value. -/
theorem invariantsHoldAtReset : Obligations.InvariantsHoldAtReset := by
  obtain ⟨hslot, hbay, hengine, hwindow, hnotice, hport, htiming⟩ := initialRecords_ok
  refine ⟨fun i => reset_slot i ▸ hslot, fun n => reset_lease n ▸ Lease.initial_ok, fun i => ?_,
    fun k => reset_window k ▸ hwindow, fun i => reset_bay i ▸ hbay, fun n => reset_notice n ▸ hnotice _,
    fun n => reset_port n ▸ hport, ⟨List.nodup_nil, rfl⟩, htiming, fun k => by rw [reset_window]; rfl⟩
  refine ⟨reset_engine i ▸ hengine, fun n => ?_⟩
  rw [reset_slot]
  cases n <;> decide

/-! ### Start-up (R2, R112, R158, R163) -/

/-- With no write in progress nothing is resolved but the queue. -/
theorem resolveWrite_ready {s : State} (h : s.store.mode = .ready) :
    s.resolveWrite = s.setStore { s.store with mode := .ready, queue := [] } := by
  unfold State.resolveWrite
  rw [h]

theorem slotBit_getLsbD (i j : Slot) : (slotBit i).getLsbD j.val = decide (j = i) := by
  revert i j
  decide

/-- The mask of a list of slots names them and no other. -/
theorem maskOf_getLsbD (l : List Slot) (i : Slot) : (maskOf l).getLsbD i.val = decide (i ∈ l) := by
  induction l with
  | nil => simp [maskOf]
  | cons j l ih =>
    have hcons : maskOf (j :: l) = slotBit j ||| maskOf l := rfl
    rw [hcons, BitVec.getLsbD_or, slotBit_getLsbD, ih]
    simp

theorem mem_allSlots (i : Slot) : i ∈ allSlots := by
  revert i
  decide

/-- R158: the lost set names the slots whose record failed its check. -/
theorem lostSetOf_getLsbD (records : Vector StoreRec 8) (i : Slot) :
    (lostSetOf records).getLsbD i.val = !(records[i]).intact := by
  rw [lostSetOf, maskOf_getLsbD]
  simp [mem_allSlots]

theorem startUp_engine (s : State) (i : Slot) : (startUp s).engine i = Engine.initial := reset_engine i
theorem startUp_window (s : State) (k : Fin 4) : (startUp s).window k = Window.initial := reset_window k
theorem startUp_batch (s : State) (n : Node) : (startUp s).batch n = Batch.initial := by cases n <;> rfl
theorem startUp_notice (s : State) (n : Node) : (startUp s).notice n = NoticeQueue.initial := reset_notice n
theorem startUp_port (s : State) (n : Node) : (startUp s).port n = Port.initial := reset_port n
theorem startUp_report (s : State) (i : Slot) : (startUp s).report i = none := by
  fin_cases i <;> rfl

/-- R163: with no write in progress start-up finds the store as it is, its queue emptied. -/
theorem startUp_store {s : State} (h : s.store.mode = .ready) :
    (startUp s).store =
      { s.store with mode := .ready, queue := [], lostSet := lostSetOf s.store.records } := by
  unfold startUp
  dsimp only
  rw [resolveWrite_ready h]
  rfl

/-- R2, in the terms of the record. -/
theorem startSlot_eq (r : StoreRec) : startSlot r =
    { phase := if r.intact = true ∧ r.owner.isSome then .owned else .unowned
      owner := if r.intact then r.owner else none
      generation := if r.intact then r.generation else 0
      target := none, path := none, batch := none, policy := .auto, quota := ⟨16, 16⟩
      autoPending := none, drainDeadline := none, storeLost := !r.intact, former := none } := by
  cases h : r.intact <;> simp [startSlot, StoreRec.restored, SlotRec.initial, h]

theorem StoreRec.restored_fingerprint (r : StoreRec) :
    r.restored.fingerprint = if r.intact then r.fingerprint else none := by
  unfold StoreRec.restored
  split <;> rfl

/-- Settles O60: both events run `startUp` on a controller that is powered and released. -/
theorem startUpRestoresFromTheStore : Obligations.StartUpRestoresFromTheStore := by
  intro s hmode started hstarted
  have hup : started (startUp { s with power := { powered := true, resetAsserted := false } }) := by
    have hwrite := resolveWrite_ready (s := { s with power := { powered := true, resetAsserted := false } }) hmode
    have hstore := startUp_store (s := { s with power := { powered := true, resetAsserted := false } }) hmode
    rw [hstarted]
    refine ⟨?_, ?_, rfl, ?_, fun n => ⟨startUp_lease _ n, startUp_batch _ n, startUp_notice _ n,
      startUp_port _ n⟩, startUp_window _, rfl, rfl, ?_, ?_⟩
    · unfold startUp
      dsimp only
      rw [hwrite]
      rfl
    · unfold startUp
      dsimp only
      rw [hwrite]
      rfl
    · rintro i r rfl
      rw [startUp_slot, startUp_bay, startUp_engine, startUp_report, hstore, hwrite]
      refine ⟨rfl, startSlot_eq _, StoreRec.restored_fingerprint _, rfl, rfl, rfl, rfl, rfl, rfl, ?_⟩
      exact lostSetOf_getLsbD _ i
    · rw [hstore]
    · rw [hstore]
  refine ⟨fun hpower => ⟨_, ?_, hup⟩, fun hpower => ⟨_, ?_, hup⟩⟩
  · change execResetRelease s = _
    unfold execResetRelease releaseReset State.setResetInput
    simp [hpower]
  · change execPowerOn s = _
    unfold execPowerOn turnOn
    simp [hpower]

end Sys2Proof.Machine
end

section
/-! The requests that report, and those that replace settings (R6, R23, R72, R80, R97, R140, R156, R157,
R162): each is one RSP on the node's port. -/

namespace Sys2Proof.Machine

/-- A request whose meaning is `f`, on a port that takes it. -/
theorem next_whenUp {s t : State} {n : Node} {f : State → State} (h : s.Takes n) (hf : f s = t) :
    (.next (whenUp n f s) : Host.Outcome State Fault Refusal) = .next t := by
  rw [whenUp_takes h, hf]

/-! ### Status requests -/

theorem nodeOf_nodeCode (x : Node) : nodeOf (BitVec.ofNat 8 (nodeCode x)) = some x := by
  cases x <;> rfl

theorem nodeOf_none {w : Byte} (h : 1 < w.toNat) : nodeOf w = none := by
  unfold nodeOf
  rw [if_neg (by rintro rfl; exact absurd h (by decide)), if_neg (by rintro rfl; exact absurd h (by decide))]

/-- Settles O17: each request is a reply on an UP port with the values of the event. -/
theorem statusRequestsReport : Obligations.StatusRequestsReport := by
  intro s n id ht
  have report : ∀ (code : Byte) (data : List Byte),
      (.next (whenUp n (fun s => s.reply n id code .done data) s) : Host.Outcome State Fault Refusal) =
        .next (s.answered n id code .done data) := fun _ _ => next_whenUp ht (reply_up ht.2 _ _ _ _)
  refine ⟨next_whenUp ht (reply_up ht.2 _ _ _ _), fun i => next_whenUp ht (reply_up ht.2 _ _ _ _),
    fun x => next_whenUp ht ?_, fun w hw => next_whenUp ht ?_, next_whenUp ht (reply_up ht.2 _ _ _ _),
    next_whenUp ht (reply_up ht.2 _ _ _ _), next_whenUp ht (reply_up ht.2 _ _ _ _), next_whenUp ht ?_⟩
  · rw [nodeOf_nodeCode]
    exact reply_up ht.2 _ _ _ _
  · rw [nodeOf_none hw]
    exact reply_up ht.2 _ _ _ _
  · have hport : ((s.setPort n (s.port n).clearStatus).port n).state = .up := by
      simpa [Port.clearStatus] using ht.2
    rw [reply_up hport]
    unfold linkStatusReply
    rw [ht.2]
    rfl

/-! ### SET_SLOT and SET_TIMING -/

theorem policyOf_none {p : Byte} (h : 1 < p.toNat) : policyOf p = none := by
  unfold policyOf
  rw [if_neg (by rintro rfl; exact absurd h (by decide)), if_neg (by rintro rfl; exact absurd h (by decide))]

theorem policyOf_some {p : Byte} (h : p.toNat ≤ 1) : policyOf p = some (if p = 0 then .auto else .manual) := by
  unfold policyOf
  by_cases h0 : p = 0
  · rw [if_pos h0, if_pos h0]
  · rw [if_neg h0, if_neg h0, if_pos (by bv_omega)]

/-- The policy of a SET_SLOT is echoed as the byte it came in. -/
theorem policyCode_of_byte {p : Byte} (h : p.toNat ≤ 1) :
    policyCode (if p = 0 then .auto else .manual) = p.toNat := by
  by_cases h0 : p = 0
  · subst h0
    rfl
  · rw [if_neg h0]
    have : p.toNat = 1 := by bv_omega
    exact this.symm

/-- SET_SLOT with a policy byte of the catalog, judged. -/
theorem setSlot_judged {s : State} {n : Node} {id : BitVec 16} {i : Slot} {p qa qb : Byte} {r : Result}
    (ht : s.Takes n) (hp : p.toNat ≤ 1) (hj : judgeSetSlot n i s = r) (hr : r ≠ .done) :
    exec (.setSlot n id i p qa qb) s = .next (s.answered n id 0x28 r []) := by
  refine next_whenUp ht ?_
  rw [policyOf_some hp]
  dsimp only
  rw [hj, if_neg hr]
  exact reply_up ht.2 _ _ _ _

theorem judgeSetSlot_noLease {s : State} {n : Node} (h : s.live n = false) (i : Slot) :
    judgeSetSlot n i s = .noLease := by
  simp [judgeSetSlot, h]

theorem judgeSetSlot_wrongState {s : State} {n : Node} {i : Slot} (h : s.live n = true)
    (hp : (s.slot i).phase = .claimed ∨ (s.slot i).phase = .draining ∨ (s.slot i).phase = .committing) :
    judgeSetSlot n i s = .wrongState := by
  simp [judgeSetSlot, h, hp]

theorem judgeSetSlot_notOwner {s : State} {n : Node} {i : Slot} (h : s.live n = true)
    (hp : (s.slot i).phase = .owned ∨ (s.slot i).phase = .handing) (ho : (s.slot i).owner ≠ some n) :
    judgeSetSlot n i s = .notOwner := by
  rcases hp with hp | hp <;> simp [judgeSetSlot, h, hp, ho]

theorem judgeSetSlot_done {s : State} {n : Node} {i : Slot} (h : s.live n = true)
    (hp : (s.slot i).phase = .unowned ∨
      ((s.slot i).phase = .owned ∨ (s.slot i).phase = .handing) ∧ (s.slot i).owner = some n) :
    judgeSetSlot n i s = .done := by
  rcases hp with hp | ⟨hp | hp, ho⟩
  · simp [judgeSetSlot, h, hp]
  · simp [judgeSetSlot, h, hp, ho]
  · simp [judgeSetSlot, h, hp, ho]

/-- R80: a clamp changes a value exactly when it lies outside the range. -/
theorem clampTo_ne_iff {lo hi : Nat} (h : lo ≤ hi) (x : Nat) : clampTo lo hi x ≠ x ↔ x < lo ∨ hi < x := by
  unfold clampTo
  omega

theorem clampTo_zero (hi x : Nat) : clampTo 0 hi x = min hi x := by
  unfold clampTo
  rw [Nat.zero_max]

/-- R80: the reply of a SET_TIMING with its clamp flags. -/
theorem setTiming_up {s : State} {n : Node} (ht : s.Takes n) (id : BitVec 16) (w b p c l : BitVec 32) :
    setTiming n id w b p c l s = ({ s with timing := timingOf w b p c l } : State).answered n id 0x33 .done
      (timingItems (timingOf w b p c l) ++ flag (decide (1000 < w.toNat))
        ++ flag (decide (b.toNat < 100 ∨ 60000 < b.toNat)) ++ flag (decide (1000 < p.toNat))
        ++ flag (decide (c.toNat < 1000 ∨ 120000 < c.toNat))
        ++ flag (decide (l.toNat < 1000 ∨ 30000 < l.toNat))) := by
  have hup : (({ s with timing := timingOf w b p c l } : State).port n).state = .up := ht.2
  unfold setTiming
  dsimp only
  rw [reply_up hup]
  simp only [timingOf, clampTo_ne_iff (by decide : 100 ≤ 60000), clampTo_ne_iff (by decide : 1000 ≤ 120000),
    clampTo_ne_iff (by decide : 1000 ≤ 30000), clampTo_ne_iff (by decide : 0 ≤ 1000), Nat.not_lt_zero, false_or]

/-- Settles O43: SET_SLOT is judged in R6's order, and SET_TIMING clamps each setting. -/
theorem setSlotAndSetTiming : Obligations.SetSlotAndSetTiming := by
  intro s n id ht
  refine ⟨fun i p qa qb answer hanswer => ⟨fun hp => (hanswer _).2 (next_whenUp ht ?_),
    fun hp => ⟨fun hlive => ?_, fun hlive => ⟨fun hphase => ?_, fun hphase howner => ?_, fun hphase => ?_⟩⟩⟩,
    fun w b p c l => ⟨fun hlive => next_whenUp ht ?_, fun hlive t htiming => next_whenUp ht ?_⟩⟩
  · rw [policyOf_none hp]
    exact reply_up ht.2 _ _ _ _
  · exact (hanswer _).2 (setSlot_judged ht hp (judgeSetSlot_noLease hlive i) (by decide))
  · exact (hanswer _).2 (setSlot_judged ht hp (judgeSetSlot_wrongState hlive hphase) (by decide))
  · exact (hanswer _).2 (setSlot_judged ht hp (judgeSetSlot_notOwner hlive hphase howner) (by decide))
  · refine next_whenUp ht ?_
    rw [policyOf_some hp]
    dsimp only
    rw [if_pos (judgeSetSlot_done hlive hphase)]
    unfold setSlotRequest
    rw [policyCode_of_byte hp, reply_up (by exact ht.2)]
    rfl
  · rw [if_neg (by simp [hlive])]
    exact reply_up ht.2 _ _ _ _
  · have hclamped : t = timingOf w b p c l := by
      rw [htiming]
      unfold timingOf
      simp only [clampTo_zero]
      rfl
    rw [if_pos hlive, setTiming_up ht, hclamped]
    rfl

end Sys2Proof.Machine
end

section
/-! Which commands leave the slot records alone (R1, R3, R7). -/

namespace Sys2Proof.Machine

/-! ### The gates -/

theorem slots_of_next {s t u : State} (hu : (.next u : Host.Outcome State Fault Refusal) = .next t)
    (h : u.slots = s.slots) : t.slots = s.slots := by
  cases hu
  exact h

theorem whenRunning_slots {s : State} {f : State → State} (h : (f s).slots = s.slots) :
    (whenRunning f s).slots = s.slots := by
  unfold whenRunning
  split
  · exact h
  · rfl

theorem whenUp_slots {s : State} {n : Node} {f : State → State} (h : (f s).slots = s.slots) :
    (whenUp n f s).slots = s.slots := by
  unfold whenUp
  split
  · exact h
  · rfl

theorem whenTrue_slots {p : State → Bool} {s : State} {f : State → State} (h : (f s).slots = s.slots) :
    (whenTrue p f s).slots = s.slots := by
  unfold whenTrue
  split
  · exact h
  · rfl

/-! ### Operations of the commands that move no slot -/

@[simp] theorem hit_slots (s : State) (k : Fin 4) : (s.hit k).slots = s.slots := rfl

@[simp] theorem command_slots (n : Node) (i : Slot) (tag kind : Byte) (gen : Gen) (lba : Lba)
    (count : BitVec 16) (s : State) : (command n i tag kind gen lba count s).slots = s.slots := by
  unfold command
  split
  · simp
  · simp [State.trapped]
  · rw [arbiter_slots]
    unfold State.admitted
    dsimp only
    split <;> rfl

@[simp] theorem relayData_slots (n : Node) (i : Slot) (tag : Byte) (p : List Byte) (s : State) :
    (relayData n i tag p s).slots = s.slots := by
  unfold relayData
  split <;> rfl

@[simp] theorem resume_slots (n : Node) (id : BitVec 16) (s : State) : (resume n id s).slots = s.slots := by
  unfold resume
  dsimp only
  split <;> simp

@[simp] theorem holdBay_slots (s : State) (i : Slot) : (s.holdBay i).slots = s.slots := rfl

@[simp] theorem adoptDrive_slots (s : State) (i : Slot) : (s.adoptDrive i).slots = s.slots := by
  simp [State.adoptDrive]

@[simp] theorem bringUpRequest_slots (want : BayState) (code : Byte) (n : Node) (id : BitVec 16) (i : Slot)
    (s : State) : (bringUpRequest want code n id i s).slots = s.slots := by
  unfold bringUpRequest
  dsimp only
  split <;> simp

@[simp] theorem setTiming_slots (n : Node) (id : BitVec 16) (w b p c l : BitVec 32) (s : State) :
    (setTiming n id w b p c l s).slots = s.slots := by
  simp [setTiming]

@[simp] theorem readReport_slots (n : Node) (id : BitVec 16) (i : Slot) (first : Nat) (s : State) :
    (readReport n id i first s).slots = s.slots := by
  unfold readReport
  split <;> simp

@[simp] theorem setWindowRequest_slots (n : Node) (id : BitVec 16) (k : Fin 4) (i : Slot) (first last : Lba)
    (kind : WindowKind) (s : State) : (setWindow n id k i first last kind s).slots = s.slots := by
  simp [setWindow]

@[simp] theorem clearWindow_slots (n : Node) (id : BitVec 16) (k : Fin 4) (s : State) :
    (clearWindow n id k s).slots = s.slots := by
  unfold clearWindow
  dsimp only
  split
  · simp
  · split <;> simp

@[simp] theorem startSweep_slots (n : Node) (first last : Slot) (m : AuditMode) (b : Byte) (s : State) :
    (startSweep n first last m b s).slots = s.slots := by
  simp [startSweep]

@[simp] theorem placeHeld_slots (s : State) (n : Node) : (s.placeHeld n).slots = s.slots := by
  unfold State.placeHeld
  split
  · split <;> rfl
  · rfl

@[simp] theorem fetchNotices_slots (n : Node) (id : BitVec 16) (s : State) :
    (fetchNotices n id s).slots = s.slots := by
  unfold fetchNotices
  extract_lets out held fetched placed u v
  have hu : u.slots = s.slots := by
    rw [show u = if placed then fetched.placeHeld n else fetched from rfl]
    split
    · exact placeHeld_slots _ n
    · rfl
  have hv : v.slots = s.slots := (reply_slots u n id _ _ _).trans hu
  split
  · split
    · rw [walkOn_slots, hv]
    · exact hv
  · exact hv

@[simp] theorem setNotices_slots (n : Node) (id : BitVec 16) (on : Bool) (mask : BitVec 32) (s : State) :
    (setNotices n id on mask s).slots = s.slots := by
  unfold setNotices
  dsimp only
  rw [reply_slots]
  split <;> simp

@[simp] theorem readSummary_slots (n : Node) (id : BitVec 16) (s : State) :
    (readSummary n id s).slots = s.slots := by
  simp [readSummary]

@[simp] theorem driveData_slots (i : Slot) (tag : Nat) (p : List Byte) (s : State) :
    (driveData i tag p s).slots = s.slots := by
  unfold driveData
  dsimp only
  split
  · split <;> simp
  · rfl

@[simp] theorem driveReady_slots (i : Slot) (s : State) : (driveReady i s).slots = s.slots := by
  unfold driveReady
  split <;> rfl

@[simp] theorem changePresence_slots (i : Slot) (level : Bool) (s : State) :
    (changePresence i level s).slots = s.slots := by
  unfold changePresence
  dsimp only
  split
  · rfl
  · split <;> rfl

@[simp] theorem lapse_slots (n : Node) (s : State) : (lapse n s).slots = s.slots := by
  unfold lapse
  dsimp only
  split <;> rfl

@[simp] theorem measure_slots (s : State) : s.measure.slots = s.slots := by
  unfold State.measure
  split <;> rfl

@[simp] theorem stretchLease_slots (s : State) (n : Node) : (s.stretchLease n).slots = s.slots := by
  unfold State.stretchLease
  split <;> rfl

@[simp] theorem probeExpires_slots (s : State) : (probeExpires s).slots = s.slots := by
  unfold probeExpires
  split
  · split <;> simp
  · rfl

@[simp] theorem resolveWrite_slots (s : State) : s.resolveWrite.slots = s.slots := by
  unfold State.resolveWrite
  split <;> rfl

@[simp] theorem assertReset_slots (s : State) : (assertReset s).slots = s.slots := by
  unfold assertReset
  dsimp only
  split
  · exact resolveWrite_slots _
  · rfl

@[simp] theorem turnOff_slots (s : State) : (turnOff s).slots = s.slots := by
  unfold turnOff
  split
  · exact resolveWrite_slots s
  · rfl

/-- Settles O10: command by command, each by the operations it is made of. -/
theorem onlyNamedCommandsChangeSlotRecords : Obligations.OnlyNamedCommandsChangeSlotRecords := by
  intro c s t hc h
  cases c with
  | cmd n i tag kind gen lba count => exact slots_of_next h (whenUp_slots (by simp))
  | data n i tag p => exact slots_of_next h (whenUp_slots (by simp))
  | crcCheckFailed n f => exact slots_of_next h (whenTrue_slots rfl)
  | protocolFault n f =>
    refine slots_of_next h (whenUp_slots ?_)
    split
    · split <;> rfl
    · rfl
  | haltedFrameDiscard n f => exact slots_of_next h rfl
  | badRequest n f => exact slots_of_next h (whenUp_slots (whenTrue_slots (by simp)))
  | identify n id => exact slots_of_next h (whenUp_slots (by simp))
  | resume n id => exact slots_of_next h (whenRunning_slots (by simp))
  | linkStatus n id => exact slots_of_next h (whenUp_slots (by simp))
  | slotStatus n id i => exact slots_of_next h (whenUp_slots (by simp))
  | hold n id i =>
    refine slots_of_next h (whenUp_slots ?_)
    dsimp only
    split <;> simp
  | unhold n id i => exact slots_of_next h (whenUp_slots (by simp))
  | adopt n id i =>
    refine slots_of_next h (whenUp_slots ?_)
    dsimp only
    split <;> simp
  | clearFault n id i => exact slots_of_next h (whenUp_slots (by simp))
  | batchStatus n id w =>
    refine slots_of_next h (whenUp_slots ?_)
    split <;> simp
  | setTiming n id w b p c l =>
    refine slots_of_next h (whenUp_slots ?_)
    split <;> simp
  | readReport n id i first =>
    refine slots_of_next h (whenUp_slots ?_)
    split <;> simp
  | discardReport n id i =>
    refine slots_of_next h (whenUp_slots ?_)
    dsimp only
    split <;> simp
  | setWindow n id index i first last kind =>
    refine slots_of_next h (whenUp_slots ?_)
    split
    · split
      · simp
      · dsimp only
        split <;> simp
    · simp
  | clearWindow n id index =>
    refine slots_of_next h (whenUp_slots ?_)
    split
    · simp
    · split <;> simp
  | windowStatus n id => exact slots_of_next h (whenUp_slots (by simp))
  | startAudit n id first last mode budget =>
    refine slots_of_next h (whenUp_slots ?_)
    split
    · simp
    · dsimp only
      split <;> simp
  | stepAudit n id =>
    refine slots_of_next h (whenUp_slots ?_)
    dsimp only
    split
    · simp
    · split <;> simp
  | stopAudit n id =>
    refine slots_of_next h (whenUp_slots ?_)
    dsimp only
    split <;> simp
  | auditStatus n id => exact slots_of_next h (whenUp_slots (by simp))
  | fetchNotices n id => exact slots_of_next h (whenUp_slots (by simp))
  | setNotices n id enable mask =>
    refine slots_of_next h (whenUp_slots ?_)
    split <;> simp
  | readSummary n id => exact slots_of_next h (whenUp_slots (by simp))
  | storeStatus n id => exact slots_of_next h (whenUp_slots (by simp))
  | driveDataFrame i tag p => exact slots_of_next h (whenRunning_slots (by simp))
  | driveReady i => exact slots_of_next h (whenRunning_slots (by simp))
  | presenceChange i level => exact slots_of_next h (by simp)
  | insertion i => exact slots_of_next h (whenRunning_slots (whenTrue_slots rfl))
  | linkTrainingComplete n => exact slots_of_next h (whenRunning_slots (whenTrue_slots rfl))
  | tick => exact slots_of_next h (whenRunning_slots (by simp))
  | referenceLost => exact slots_of_next h (whenRunning_slots (whenTrue_slots (by simp [referenceLost])))
  | referenceQualified => exact slots_of_next h (whenRunning_slots (whenTrue_slots rfl))
  | referenceRegained => exact slots_of_next h (whenRunning_slots (whenTrue_slots rfl))
  | lapseDeadline n => exact slots_of_next h (whenRunning_slots (whenTrue_slots (by simp)))
  | bringupDeadline i => exact slots_of_next h (whenRunning_slots (whenTrue_slots rfl))
  | probeDeadline => exact slots_of_next h (whenRunning_slots (by simp))
  | resetAssert => exact slots_of_next h (by simp)
  | powerFail => exact slots_of_next h (by simp)
  | _ => cases hc

end Sys2Proof.Machine
end

section
/-! The end of a write attempt that fails (R160, R161): no commit that ends while the store is FAULTED,
with every consequence, writes anything. -/

namespace Sys2Proof.Machine

/-- While the store is FAULTED it stands as it is (R161). -/
def FaultStands (s t : State) : Prop := s.store.mode = .faulted → t.store = s.store

theorem FaultStands.of_eq {s t : State} (h : t.store = s.store) : FaultStands s t := fun _ => h

theorem FaultStands.refl (s : State) : FaultStands s s := .of_eq rfl

theorem FaultStands.trans {s t u : State} (h : FaultStands s t) (k : FaultStands t u) : FaultStands s u := by
  intro hm
  have ht := h hm
  exact (k (by rw [ht, hm])).trans ht

theorem FaultStands.setBatch (s : State) (n : Node) (b : Batch) : FaultStands s (s.setBatch n b) := .of_eq rfl

theorem FaultStands.ite {p : Prop} [Decidable p] {s t u : State} (h : FaultStands s t) (k : FaultStands s u) :
    FaultStands s (if p then t else u) := by
  split
  · exact h
  · exact k

theorem FaultStands.foldl {α : Type} {f : State → α → State} (h : ∀ s x, FaultStands s (f s x)) (l : List α)
    (s : State) : FaultStands s (l.foldl f s) := by
  induction l generalizing s with
  | nil => exact .refl s
  | cons x l ih => exact (h s x).trans (ih _)

/-! ### The pieces of a commit and of a batch -/

theorem reply_store (s : State) (n : Node) (id : BitVec 16) (c : Byte) (r : Result) (d : List Byte) :
    (s.reply n id c r d).store = s.store := by
  unfold State.reply
  dsimp only
  split <;> rfl

theorem returnSlot_store (s : State) (n : Node) (i : Slot) (p : PriorPhase) :
    (s.returnSlot n i p).store = s.store := by
  unfold State.returnSlot
  dsimp only
  split <;> rfl

theorem claimReply_store (s : State) (n : Node) (i : Slot) (b : Bool) : (s.claimReply n i b).store = s.store := by
  unfold State.claimReply
  split
  · exact reply_store _ n _ _ _ _
  · rfl

theorem memberDone_store (s : State) (n : Node) (i : Slot) (b : Bool) : (s.memberDone n i b).store = s.store := by
  unfold State.memberDone
  dsimp only
  split
  · rfl
  · split <;> rfl

theorem commitResults_store (s : State) (i : Slot) (r : SlotRec) (b : Bool) :
    (s.commitResults i r b).store = s.store := by
  unfold State.commitResults
  split
  · exact claimReply_store s _ i b
  · rfl
  · rfl
  · exact memberDone_store s _ i b
  · rfl

theorem FaultStands.startCommitWith {fin : Slot → Bool → State → State}
    (hf : ∀ i b s, FaultStands s (fin i b s)) (i : Slot) (o : Owner) (p : CommitPath) (s : State) :
    FaultStands s (startCommitWith fin i o p s) := by
  intro hm
  have hfault : (s.beginCommit i o p).storeFaulted = true := decide_eq_true hm
  unfold Machine.startCommitWith
  dsimp only
  rw [if_pos hfault]
  exact hf i false (s.beginCommit i o p) hm

theorem FaultStands.runMember {fin : Slot → Bool → State → State} (hf : ∀ i b s, FaultStands s (fin i b s))
    (n : Node) (m : Member) (s : State) : FaultStands s (runMember fin n m s) := by
  have commit : ∀ s, FaultStands s (Machine.startCommitWith fin m.slot (some n) .takeover
      (s.setMember n m.slot (fun k => { k with status := .committing }))) := fun s =>
    (FaultStands.of_eq rfl).trans (.startCommitWith hf _ _ _ (s.setMember n m.slot _))
  unfold Machine.runMember
  dsimp only
  split
  · exact .of_eq (returnSlot_store _ n _ _)
  · split
    · exact commit s
    · refine FaultStands.trans (.of_eq rfl : FaultStands s (s.fenceOwner m.slot (m.oldOwner.getD n.partner) n)) ?_
      exact .ite (commit _) (.of_eq rfl)

theorem FaultStands.runMembers {fin : Slot → Bool → State → State} (hf : ∀ i b s, FaultStands s (fin i b s))
    (n : Node) (s : State) : FaultStands s (runMembers fin n s) :=
  (FaultStands.setBatch s n _).trans (.foldl (fun s m => .runMember hf n m s) _ _)

/-! ### Batches that follow -/

theorem joins_store (n : Node) (is : List Slot) (s : State) :
    (is.foldl (fun s i => s.join n i) s).store = s.store := by
  induction is generalizing s with
  | nil => rfl
  | cons i is ih => exact ih _

theorem setAutoPendings_store (m : Option Node) (is : List Slot) (s : State) :
    (is.foldl (fun s i => s.setAutoPending i m) s).store = s.store := by
  induction is generalizing s with
  | nil => rfl
  | cons i is ih => exact ih _

section
variable {run : Node → State → State}

theorem FaultStands.gatherWith (hr : ∀ n s, FaultStands s (run n s)) (n : Node) (s : State) :
    FaultStands s (gatherWith run n s) := by
  unfold Machine.gatherWith
  exact (FaultStands.setBatch s n _).trans (.ite (hr n _) (.refl _))

theorem FaultStands.deferredWith (hr : ∀ n s, FaultStands s (run n s)) (n : Node) (s : State) :
    FaultStands s (deferredWith run n s) := by
  unfold Machine.deferredWith
  dsimp only
  refine FaultStands.trans (.of_eq (setAutoPendings_store none _ s)) (.ite (.refl _) ?_)
  refine FaultStands.trans (.of_eq ?_) (.gatherWith hr n _)
  rw [joins_store]
  rfl

theorem FaultStands.checkBatchWith (hr : ∀ n s, FaultStands s (run n s)) (n : Node) (s : State) :
    FaultStands s (checkBatchWith run n s) :=
  .ite (FaultStands.trans (t := s.closeBatch n _) (.of_eq rfl) (.deferredWith hr n _)) (.refl s)

theorem FaultStands.claimForWith (hr : ∀ n s, FaultStands s (run n s)) (y : Node) (is : List Slot)
    (s : State) : FaultStands s (claimForWith run y is s) := by
  unfold Machine.claimForWith
  refine .ite (.refl s) ?_
  split
  · exact .of_eq (setAutoPendings_store (some y) is s)
  · exact FaultStands.trans (.of_eq (joins_store y is s)) (.gatherWith hr y _)
  · exact FaultStands.trans (.of_eq (joins_store y is (s.createBatch y .auto))) (.gatherWith hr y _)

theorem FaultStands.commitCheckWith (hr : ∀ n s, FaultStands s (run n s)) (i : Slot) (s : State) :
    FaultStands s (commitCheckWith run i s) := by
  unfold Machine.commitCheckWith
  dsimp only
  split
  · exact .ite (.claimForWith hr _ _ s) (.refl s)
  · exact .refl s

theorem FaultStands.afterResultsWith (hr : ∀ n s, FaultStands s (run n s)) (r : SlotRec) (s : State) :
    FaultStands s (afterResultsWith run r s) := by
  unfold Machine.afterResultsWith
  split
  · exact .checkBatchWith hr _ s
  · exact .refl s

theorem FaultStands.finishWith (hr : ∀ n s, FaultStands s (run n s)) (i : Slot) (b : Bool) (s : State) :
    FaultStands s (finishWith run i b s) := by
  unfold Machine.finishWith
  refine .ite ?_ (.refl s)
  refine ((FaultStands.of_eq ?_).trans (.afterResultsWith hr _ _)).trans (.commitCheckWith hr i _)
  exact commitResults_store (s.setSlot i _) i _ b

end

theorem FaultStands.runLevel (k : Nat) (n : Node) (s : State) : FaultStands s (runLevel k n s) := by
  induction k generalizing n s with
  | zero => exact .refl s
  | succ k ih =>
    exact (FaultStands.runMembers (fun i b s => .finishWith ih i b s) n s).trans (.checkBatchWith ih n _)

theorem FaultStands.completeUpdate (b : Bool) (u : Update) (s : State) :
    FaultStands s (completeUpdate b u s) :=
  .ite (.finishWith (fun n s => .runLevel 4 n s) u.slot b s) (.refl s)

/-! ### The failed attempt -/

/-- R160: an attempt that is 20 to 80 ticks old may end. -/
theorem attemptMayEnd_of {now d : Tick} (h1 : 20 ≤ (now - d).toNat) (h2 : (now - d).toNat ≤ 80) :
    attemptMayEnd now d = true := by
  unfold attemptMayEnd
  rw [decide_eq_true h1, decide_eq_true h2]
  rfl

/-- Settles O48: a retry replaces the mode alone, and the third failure completes the updates in turn
(`completeUpdates`) in a store that stands (`FaultStands`). -/
theorem failedWriteIsRetriedThenFaults : Obligations.FailedWriteIsRetriedThenFaults := by
  intro s u k d hrun hmode hlo hhi
  have hexec : exec .storeWriteFailed s = .next (if k < 3 then
      s.setStore { s.store with mode := .writing u (k + 1) s.now } else storeFails u s) := by
    change Host.Outcome.next (whenRunning writeFailed s) = _
    rw [whenRunning_on hrun]
    unfold writeFailed
    rw [hmode]
    dsimp only
    rw [if_pos (attemptMayEnd_of hlo hhi)]
  refine ⟨fun hk => ?_, fun hk v hv => ⟨storeFails u s, ?_, ?_, ?_⟩⟩
  · rw [hexec, if_pos hk]
  · rw [hexec, if_neg (by omega)]
  · rw [hv]
    exact completeUpdates false _ _
  · rw [hv]
    exact FaultStands.foldl (fun s w => .completeUpdate false w s) (u :: s.store.queue) _ rfl

end Sys2Proof.Machine
end

section
/-! The end of a write attempt that succeeds (R9, R10, R98, R155, R159, R160). -/

namespace Sys2Proof.Machine

/-! ### The store -/

/-- R160: the store after a written update: its record is in, and the next waiting write starts. -/
def Store.written (st : Store) (u : Update) (now : Tick) : Store :=
  { st with
    records := putAt st.records u.slot
      { owner := u.owner, generation := u.generation, fingerprint := u.fingerprint, intact := true }
    mode := match st.queue with
      | [] => .ready
      | v :: _ => .writing v 1 now
    queue := st.queue.tail }

/-- R160: an event that leaves the store as the write left it ends with the store READY or with the next
write started. -/
theorem storeReady_written {s t : State} {u : Update} (hs : t.store = s.store.write u) (hn : t.now = s.now) :
    t.storeReady = t.setStore (s.store.written u s.now) := by
  unfold State.storeReady Store.written
  rw [hs, hn]
  cases hq : s.store.queue with
  | nil => simp [Store.kick, Store.write, hq, Update.record]
  | cons v vs => simp [Store.kick, Store.write, hq, Update.record]

/-- The state at a written update, before the store is READY again. -/
theorem exec_storeWriteDone {s : State} {u : Update} {k : Nat} {d : Tick} (hrun : s.running = true)
    (hmode : s.store.mode = .writing u k d) (hlo : 20 ≤ (s.now - d).toNat) (hhi : (s.now - d).toNat ≤ 80) :
    exec .storeWriteDone s = .next (completeUpdate true u (s.setStore (s.store.write u))).storeReady := by
  change Host.Outcome.next (whenRunning writeDone s) = _
  rw [whenRunning_on hrun]
  unfold writeDone
  rw [hmode]
  dsimp only
  rw [if_pos (attemptMayEnd_of hlo hhi)]

/-! ### The end of a handover whose new owner is gone (R10) -/

/-- R9: the slot rests. -/
theorem SlotRec.rest_owned {r : SlotRec} {n : Node} (h : r.owner = some n) : r.rest = { r with
    phase := .owned, target := none, path := none, batch := none, drainDeadline := none, former := none } := by
  simp [SlotRec.rest, SlotRec.enter, h]

theorem SlotRec.rest_unowned {r : SlotRec} (h : r.owner = none) : r.rest = { r with
    phase := .unowned, target := none, path := none, batch := none, drainDeadline := none, former := none } := by
  simp [SlotRec.rest, SlotRec.enter, h]

/-- R9, R10: a handover commit that ends, before R10's check. -/
theorem commitDone_handover {s : State} {i : Slot} {b : Bool} (hp : (s.slot i).phase = .committing)
    (hpath : (s.slot i).path = some .handover) :
    commitDone i b s = commitCheckWith runBatch i ((s.setSlot i (s.slot i).rest).raiseBoth (some i)
      (.slotHanded (s.slot i).owner (s.slot i).generation)) := by
  unfold commitDone finishWith
  rw [if_pos hp]
  unfold afterResultsWith State.commitResults
  simp only [hpath]

theorem setBatch_setSlot (s : State) (n : Node) (b : Batch) (i : Slot) (r : SlotRec) :
    (s.setBatch n b).setSlot i r = (s.setSlot i r).setBatch n b := rfl

/-- R98: one slot claimed for a node with no batch under way, the gather window not 0. -/
theorem claimFor_one {run : Node → State → State} {y : Node} {i : Slot} {s : State}
    (hb : (s.batch y).state = .noBatch ∨ (s.batch y).state = .ended) (hw : s.timing.gatherWindow ≠ 0) :
    claimForWith run y [i] s = (s.setSlot i ((s.slot i).enter .claimed none none (some y) none)).setBatch y
      { state := .gathering, number := (s.batch y).number + 1, origin := some .auto
        members := [{ slot := i, prior := priorOf (s.slot i), oldOwner := (s.slot i).owner, status := .gathered
                      orphans := none, newGeneration := none, stored := none }]
        gatherDeadline := some (later s.now (s.timing.gatherWindow * 10))
        startTick := none, endTick := none, outcome := none } := by
  have hcreate : claimForWith run y [i] s = gatherWith run y ((s.createBatch y .auto).join y i) := by
    unfold claimForWith
    rw [if_neg (by simp)]
    rcases hb with hb | hb <;> rw [hb] <;> rfl
  have htiming : ((s.createBatch y .auto).join y i).timing.gatherWindow = s.timing.gatherWindow := rfl
  rw [hcreate]
  unfold gatherWith
  dsimp only
  rw [State.setBatch_timing, if_neg (by rw [htiming]; exact hw)]
  unfold State.join State.createBatch
  dsimp only
  simp only [setBatch_setSlot, State.setBatch_batch, if_true, State.setBatch_setBatch]
  rfl

/-- R10: the new owner is gone, the policy AUTO and the partner live. -/
theorem commitCheck_claims {run : Node → State → State} {i : Slot} {s : State} {x : Node}
    (hp : (s.slot i).phase = .owned) (ho : (s.slot i).owner = some x) (hg : s.gone x = true)
    (hauto : (s.slot i).policy = .auto) (hl : s.live x.partner = true) :
    commitCheckWith run i s = claimForWith run x.partner [i] s := by
  unfold commitCheckWith
  dsimp only
  rw [hp, ho]
  dsimp only
  rw [if_pos (by simp [hg, hauto, hl])]

/-- R10, R98: a handover commit that ends where the new owner is gone, the policy is AUTO and the partner
lives: the slot is claimed in a new batch of the partner. -/
theorem commitDone_handover_gone {s : State} {i : Slot} {b : Bool} {n : Node}
    (hp : (s.slot i).phase = .committing) (hpath : (s.slot i).path = some .handover)
    (howner : (s.slot i).owner = some n) (hgone : s.gone n = true) (hauto : (s.slot i).policy = .auto)
    (hlive : s.live n.partner = true) (hwindow : s.timing.gatherWindow ≠ 0)
    (hbatch : (s.batch n.partner).state = .noBatch ∨ (s.batch n.partner).state = .ended) :
    commitDone i b s = (((s.setSlot i { s.slot i with
        phase := .owned, target := none, path := none, batch := none, drainDeadline := none
        former := none }).raiseBoth (some i) (.slotHanded (some n) (s.slot i).generation)).setSlot i { s.slot i with
          phase := .claimed, target := none, path := none, batch := some n.partner, drainDeadline := none
          former := none }).setBatch n.partner
      { state := .gathering, number := (s.batch n.partner).number + 1, origin := some .auto
        members := [{ slot := i, prior := .owned, oldOwner := some n, status := .gathered
                      orphans := none, newGeneration := none, stored := none }]
        gatherDeadline := some (later s.now (s.timing.gatherWindow * 10))
        startTick := none, endTick := none, outcome := none } := by
  rw [commitDone_handover hp hpath, SlotRec.rest_owned howner, howner]
  generalize hhanded : (s.setSlot i _).raiseBoth _ _ = handed
  have hslot : handed.slot i = { s.slot i with
      phase := .owned, owner := some n, target := none, path := none, batch := none, drainDeadline := none, former := none } := by
    rw [← hhanded]
    exact State.setSlot_slot_same _ _ _
  have hclaim : commitCheckWith runBatch i handed = claimForWith runBatch n.partner [i] handed := by
    subst hhanded
    exact commitCheck_claims (by rw [hslot]) (by rw [hslot]) hgone (by rw [hslot]; exact hauto) hlive
  rw [hclaim, claimFor_one (by subst hhanded; exact hbatch) (by subst hhanded; exact hwindow), hslot]
  subst hhanded
  simp only [priorOf, if_true, howner]
  rfl

theorem gone_of_live {s : State} {n : Node} (h : s.live n = true) : s.gone n = false := by
  rcases (s.live_iff n).1 h with h | h <;> simp [State.gone, h]

/-- Settles O46: the end of each commit path (`commitDone_ends`, `commitDone_handover`), with the store
written. -/
theorem writtenUpdateEndsTheCommit : Obligations.WrittenUpdateEndsTheCommit := by
  rintro s u k d hrun hmode hlo hhi st rfl
  have hexec := exec_storeWriteDone hrun hmode hlo hhi
  refine ⟨fun hw => ?_, fun hw hphase => ?_⟩
  · rw [hexec, completeUpdate, if_neg (by simp [hw]), storeReady_written (s := s) (u := u) (by rfl) (by rfl)]
    rfl
  · rw [hexec, completeUpdate, if_pos hw]
    have hends := commitDone_ends (i := u.slot) (stored := true) (s := s.setStore (s.store.write u)) hphase _ _
      rfl rfl
    obtain ⟨hclaim, hrelease, hhandover, -⟩ := hends
    refine ⟨fun x hpath howner hformer => ?_, fun n id hpath howner hlive hup hawait => ?_, ?_⟩
    · rw [hrelease x hpath howner hformer, storeReady_written (s := s) (u := u) (by rfl) (by rfl)]
      simp only [State.setStore_slot, howner]
      rfl
    · obtain ⟨-, hreply⟩ := hclaim n hpath howner (gone_of_live hlive) _ _ rfl rfl
      rw [hreply id (by simp [hawait]), storeReady_written (s := s) (u := u) (by rfl) (by rfl)]
      simp only [State.setStore_slot, State.setStore_port, howner, hup, hawait]
      simp only [ne_eq, not_true_eq_false, decide_false, Bool.false_eq_true, not_false_eq_true,
        List.filter_cons_of_neg, List.filter_nil, if_true]
      rfl
    · rintro n hpath howner rested rfl handed rfl
      refine ⟨fun hgone => ?_, fun hgone hauto hlive hwindow hbatch => ?_⟩
      · rw [hhandover n hpath howner hgone, storeReady_written (s := s) (u := u) (by rfl) (by rfl)]
        simp only [State.setStore_slot, howner]
        rfl
      · have hdone := commitDone_handover_gone (s := s.setStore (s.store.write u)) (b := true) hphase hpath howner
          hgone hauto hlive hwindow hbatch
        rw [hdone, storeReady_written (s := s) (u := u) (by rfl) (by rfl)]
        rfl

end Sys2Proof.Machine
end

section
/-! CLAIM_FREE (R12, R13), taken and refused. -/

namespace Sys2Proof.Machine

/-! ### The order of R12 and R13 -/

section
variable {s : State} {n : Node} {i : Slot}

theorem judgeClaimFree_noLease (h : s.live n = false) : judgeClaimFree n i s = .noLease := by
  simp [judgeClaimFree, h]

theorem judgeClaimFree_of_phase (h : s.live n = true) (hp : (s.slot i).phase ≠ .unowned) :
    judgeClaimFree n i s = if contestedFor n (s.slot i) then .contested else .wrongState := by
  simp [judgeClaimFree, h, hp]

theorem judgeClaimFree_held (h : s.live n = true) (hp : (s.slot i).phase = .unowned)
    (hb : (s.bay i).state = .held) : judgeClaimFree n i s = .wrongState := by
  simp [judgeClaimFree, h, hp, hb]

theorem judgeClaimFree_grace (h : s.live n = true) (hp : (s.slot i).phase = .unowned)
    (hb : (s.bay i).state ≠ .held) (hlost : (s.slot i).storeLost = true) (hgrace : s.time.grace = true) :
    judgeClaimFree n i s = .ownerGrace := by
  simp [judgeClaimFree, h, hp, hb, hlost, hgrace]

theorem judgeClaimFree_done (h : s.live n = true) (hp : (s.slot i).phase = .unowned)
    (hb : (s.bay i).state ≠ .held) (hg : (s.slot i).storeLost = false ∨ s.time.grace = false) :
    judgeClaimFree n i s = .done := by
  rcases hg with hg | hg <;> simp [judgeClaimFree, h, hp, hb, hg]

/-- A CLAIM_FREE that is refused. -/
theorem claimFree_refused (ht : s.Takes n) {id : BitVec 16} {r : Result} (hj : judgeClaimFree n i s = r)
    (hr : r ≠ .done) : exec (.claimFree n id i) s = .next (s.answered n id 0x21 r []) := by
  refine next_whenUp ht ?_
  dsimp only
  rw [hj, if_neg hr]
  exact reply_up ht.2 _ _ _ _

/-- A CLAIM_FREE that is taken starts the commit step with its reply awaited. -/
theorem claimFree_taken (ht : s.Takes n) {id : BitVec 16} (hj : judgeClaimFree n i s = .done) :
    exec (.claimFree n id i) s = .next (startCommit i (some n) .claim (s.awaitReply n id i)) := by
  refine next_whenUp ht ?_
  dsimp only
  rw [if_pos hj]
  rfl

end

/-! ### The commit that a taken request begins -/

theorem onSlot_of_active_none {w : Window} {i : Slot} (h : w.active = none) : w.onSlot i = false := by
  simp [Window.onSlot, h]

/-- R76: the windows of the slot are cleared and the others stand. -/
theorem clearWindows_cleared (s : State) (i : Slot) (k : Fin 4) :
    ((s.window k).onSlot i = true → ((s.clearWindows i).window k).active = none) ∧
    ((s.window k).onSlot i = false → (s.clearWindows i).window k = s.window k) := by
  rw [clearWindows_window]
  refine ⟨fun h => ?_, fun h => ?_⟩
  · rw [if_pos h]
    exact Window.clear_active _ _
  · rw [if_neg (by simp [h])]

/-- R9, R155: the awaiting-reply set of a port before and after a CLAIM_FREE of a slot that none awaited. -/
theorem awaiting_split {ws : List AwaitingReply} {i : Slot} (h : ∀ a ∈ ws, a.slot ≠ i) (id : BitVec 16) :
    (ws ++ [(⟨id, i⟩ : AwaitingReply)]).filter (fun w : AwaitingReply => decide (w.slot = i)) = [⟨id, i⟩] ∧
    (ws ++ [(⟨id, i⟩ : AwaitingReply)]).filter (fun w : AwaitingReply => decide (w.slot ≠ i)) = ws := by
  constructor
  · rw [List.filter_append, List.filter_eq_nil_iff.2 (by simpa using h)]
    simp
  · rw [List.filter_append, List.filter_eq_self.2 (by simpa using h)]
    simp

/-- R8, R155: a CLAIM_FREE taken while the store is FAULTED. -/
theorem claimFree_faulted {s : State} {n : Node} {i : Slot} (id : BitVec 16) (ht : s.Takes n)
    (hlive : s.live n = true) (hm : s.store.mode = .faulted) (ha : ∀ a ∈ (s.port n).awaiting, a.slot ≠ i) :
    startCommit i (some n) .claim (s.awaitReply n id i) =
      ((((s.awaitReply n id i).beginCommit i (some n) .claim).setSlot i { s.slot i with
          phase := .owned, owner := some n, generation := succGen (s.slot i).generation
          target := none, path := none, batch := none, drainDeadline := none
          autoPending := none, storeLost := false, former := none }).setPort n { s.port n with
            unsent := (s.port n).unsent ++ [.rsp id 0x21 .done
              (genItem (succGen (s.slot i).generation) ++ u8 0)] }).raise n (some i)
        (.slotTaken (succGen (s.slot i).generation) false) := by
  generalize hbegun : (s.awaitReply n id i).beginCommit i (some n) .claim = begun
  have hslot : begun.slot i = (s.slot i).begin (some n) .claim := by
    rw [← hbegun, beginCommit_slot, if_pos rfl]
    rfl
  have hport : begun.port n = { s.port n with awaiting := (s.port n).awaiting ++ [{ id := id, slot := i }] } := by
    subst hbegun
    exact State.setPort_port_same s n _
  have hgone : begun.gone n = false := by
    subst hbegun
    exact gone_of_live hlive
  obtain ⟨hclaim, -⟩ := commitDone_ends (stored := false) (by rw [hslot]; rfl : (begun.slot i).phase = .committing) _ _
    rfl rfl
  obtain ⟨hown, hothers⟩ := awaiting_split ha id
  obtain ⟨-, hreply⟩ := hclaim n (by rw [hslot]; rfl) (by rw [hslot]; rfl) hgone _ _ rfl rfl
  rw [startCommit_faulted (by exact hm), hbegun, hreply id (by rw [hport]; exact hown)]
  rw [hport, hslot]
  dsimp only
  rw [hothers, if_pos ht.2]
  rfl

/-- Settles O44: a refused request is judged in R12's order; a taken one begins the commit
(`startCommit_accepts`), which ends at once in a FAULTED store (`claimFree_faulted`). -/
theorem claimFreeBeginsTheCommit : Obligations.ClaimFreeBeginsTheCommit := by
  intro s n id i ht answer hanswer
  have refuse : ∀ {r : Result}, judgeClaimFree n i s = r → r ≠ .done → answer r := fun hj hr =>
    (hanswer _).2 (claimFree_refused ht hj hr)
  refine ⟨fun hlive => refuse (judgeClaimFree_noLease hlive) (by decide), fun hlive =>
    ⟨fun hp hb => ?_, fun hp hb => ?_, fun hp hpath htarget => ?_, fun hp => ?_, fun hp =>
      ⟨fun hheld => refuse (judgeClaimFree_held hlive hp hheld) (by decide), fun hheld =>
        ⟨fun hlost hgrace => refuse (judgeClaimFree_grace hlive hp hheld hlost hgrace) (by decide),
          fun st hg haccepts => ?_, fun hg hm ha => ?_⟩⟩⟩⟩
  · refine refuse (r := .contested) ?_ (by decide)
    rw [judgeClaimFree_of_phase hlive (by rcases hp with hp | hp <;> simp [hp])]
    rcases hp with hp | hp <;> simp [contestedFor, hp, hb]
  · refine refuse (r := .wrongState) ?_ (by decide)
    rw [judgeClaimFree_of_phase hlive (by rcases hp with hp | hp <;> simp [hp])]
    rcases hp with hp | hp <;> simp [contestedFor, hp, hb]
  · refine refuse (r := .contested) ?_ (by decide)
    rw [judgeClaimFree_of_phase hlive (by simp [hp])]
    simp [contestedFor, hp, hpath, htarget]
  · refine refuse (r := .wrongState) ?_ (by decide)
    rw [judgeClaimFree_of_phase hlive (by rcases hp with hp | hp | ⟨hp, -⟩ <;> simp [hp])]
    rcases hp with hp | hp | ⟨hp, hother⟩
    · simp [contestedFor, hp]
    · simp [contestedFor, hp]
    · rcases hother with hother | hother <;> simp [contestedFor, hp, hother]
  · have hstart := startCommit_accepts (s := s.awaitReply n id i) (p := .claim) haccepts
    refine ⟨_, claimFree_taken ht (judgeClaimFree_done hlive hp hheld hg), ?_⟩
    rw [hstart]
    refine ⟨?_, rfl, State.setPort_port_same s n _, fun k => (clearWindows_cleared s i k).1,
      fun k => (clearWindows_cleared s i k).2, fun j hj => ?_, rfl⟩
    · exact (beginCommit_slot _ i _ _ i).trans (if_pos rfl)
    · exact (beginCommit_slot _ i _ _ j).trans (if_neg hj)
  · refine ⟨_, claimFree_taken ht (judgeClaimFree_done hlive hp hheld hg), ?_⟩
    rw [claimFree_faulted id ht hlive hm ha]
    refine ⟨State.setSlot_slot_same _ i _, State.setPort_port_same _ n _, rfl, fun k => (clearWindows_cleared s i k).1,
      fun k => (clearWindows_cleared s i k).2, fun j hj => ?_, ?_, rfl⟩
    · refine (State.setSlot_slot _ i _ j).trans ?_
      rw [if_neg hj]
      exact (beginCommit_slot _ i _ _ j).trans (if_neg hj)
    · refine (Pair.get_put_partner _ n _).trans (Pair.get_put_partner _ n _)

end Sys2Proof.Machine
end

section
/-! The bay's part of a removal and of a link reset that fails, and the commit that follows (R18 to R20, R91,
R93, R116, R122, R123). -/

namespace Sys2Proof.Machine

/-! ### CPLs of two lists -/

theorem cplsFor_append (n : Node) (i : Slot) (st : CplStatus) (g : Gen) (cs ds : List Command) :
    cplsFor n i st g (cs ++ ds) = cplsFor n i st g cs ++ cplsFor n i st g ds := by
  simp [cplsFor]

/-! ### Withdrawals and removals (R66, R67, R116) -/

/-- What R66 does: the waiting list of the bay is emptied and answered; nothing else changes. -/
structure Withdrawn (s : State) (i : Slot) (st : CplStatus) (t : State) : Prop where
  eng : t.engine i = { s.engine i with waiting := [] }
  port : ∀ n, (t.port n).state = (s.port n).state ∧
    ((s.port n).state = .up → (t.port n).unsent = (s.port n).unsent ++
      cplsFor n i st (s.slot i).generation (s.engine i).waiting)
  oth : ∀ j, j ≠ i → t.engine j = s.engine j
  frame : { t with engines := s.engines, ports := s.ports } = s

theorem withdraw_spec (s : State) (i : Slot) (st : CplStatus) : Withdrawn s i st (s.withdraw i st) := by
  obtain ⟨hframe, hports⟩ := sendCpls_ports i st (s.engine i).waiting
    (s.setEngine i { s.engine i with waiting := [] })
  constructor
  · exact (congrArg (fun u => State.engine u i) hframe).trans (State.setEngine_engine_same s i _)
  · exact hports
  · exact fun j hj => (congrArg (fun u => State.engine u j) hframe).trans
      ((State.setEngine_engine s i _ j).trans (if_neg hj))
  · exact congrArg (fun u : State => { u with engines := s.engines }) hframe

/-- What R67 does for a removal: the tag table is emptied and its ACTIVE commands answered, and the PENDING
report entries take LOST_REMOVED. -/
structure TagsLost (s : State) (i : Slot) (t : State) : Prop where
  eng : t.engine i = { s.engine i with tags := [] }
  port : ∀ n, (t.port n).state = (s.port n).state ∧
    ((s.port n).state = .up → (t.port n).unsent = (s.port n).unsent ++
      cplsFor n i .driveRemoved (s.slot i).generation (activeCommands (s.engine i).tags))
  rep : t.report i = (s.report i).map (fun r => { r with entries := fillPending .lostRemoved r.entries })
  oth : ∀ j, j ≠ i → t.engine j = s.engine j
  frame : { t with engines := s.engines, reports := s.reports, ports := s.ports } = s

theorem endTagsByRemoval_spec (s : State) (i : Slot) : TagsLost s i (s.endTagsByRemoval i) := by
  obtain ⟨hframe, hports⟩ := sendCpls_ports i .driveRemoved (activeCommands (s.engine i).tags)
    ((s.setEngine i { s.engine i with tags := [] }).setReport i
      ((s.report i).map (fun r => { r with entries := fillPending .lostRemoved r.entries })))
  constructor
  · exact (congrArg (fun u => State.engine u i) hframe).trans (State.setEngine_engine_same s i _)
  · exact hports
  · exact (congrArg (fun u => State.report u i) hframe).trans (State.setReport_report_same _ i _)
  · exact fun j hj => (congrArg (fun u => State.engine u j) hframe).trans
      ((State.setEngine_engine s i _ j).trans (if_neg hj))
  · exact congrArg (fun u : State => { u with engines := s.engines, reports := s.reports }) hframe

/-- The state with the records that an event of a bay changes as they are in another. -/
def State.butBay (t s : State) : State :=
  { t with engines := s.engines, reports := s.reports, ports := s.ports, bays := s.bays, notices := s.notices }

/-- Everything a removal changes at its bay before the slot commits, and what it leaves (R116). -/
structure BayEmptied (s : State) (i : Slot) (t : State) : Prop where
  bay : t.bay i = { (s.bay i).forget with
    state := .empty, present := false, debounce := none, bringupDeadline := none, resetDeadline := none
    resetCause := none, awaits := .nothing, linkHeld := false }
  eng : t.engine i = { s.engine i with waiting := [], tags := [], probeRequest := false }
  port : ∀ n, (s.port n).state = .up → (t.port n).unsent = (s.port n).unsent ++
    cplsFor n i .driveRemoved (s.slot i).generation (activeCommands (s.engine i).tags ++ (s.engine i).waiting)
  rep : t.report i = (s.report i).map (fun r => { r with entries := fillPending .lostRemoved r.entries })
  oth : ∀ j, j ≠ i → t.bay j = s.bay j ∧ t.engine j = s.engine j
  frame : t.butBay s = s

theorem emptyBay_spec (s : State) (i : Slot) : BayEmptied s i (s.emptyBay i) := by
  have hlost := endTagsByRemoval_spec s i
  have hdrawn := withdraw_spec (s.endTagsByRemoval i) i .driveRemoved
  unfold State.emptyBay
  generalize s.endTagsByRemoval i = u at hlost hdrawn ⊢
  generalize u.withdraw i .driveRemoved = v at hdrawn ⊢
  have hub : u.bays = s.bays := (congrArg State.bays hlost.frame :)
  have hvb : v.bays = s.bays := (congrArg State.bays hdrawn.frame :).trans hub
  have hbay : ∀ j, v.bay j = s.bay j := fun j => by unfold State.bay; rw [hvb]
  constructor
  · refine (State.setBay_bay_same _ i _).trans ?_
    rw [State.setEngine_bay, hbay]
  · refine (State.setEngine_engine_same v i _).trans ?_
    rw [hdrawn.eng, hlost.eng]
  · intro n hup
    have hu : (u.port n).state = .up := (hlost.port n).1.trans hup
    have hslot : u.slot i = s.slot i := (congrArg (fun x => State.slot x i) hlost.frame :)
    refine ((hdrawn.port n).2 hu).trans ?_
    rw [(hlost.port n).2 hup, hslot, hlost.eng, cplsFor_append, List.append_assoc]
  · have hrep : v.report i = u.report i := (congrArg (fun x => State.report x i) hdrawn.frame :)
    exact hrep.trans hlost.rep
  · intro j hj
    refine ⟨(State.setBay_bay _ i _ j).trans ((if_neg hj).trans (hbay j)), ?_⟩
    refine (State.setEngine_engine v i _ j).trans ((if_neg hj).trans ?_)
    rw [hdrawn.oth j hj, hlost.oth j hj]
  · have hforget : ∀ {x y : State}, x = y → x.butBay s = y.butBay s := fun h => congrArg (·.butBay s) h
    exact (hforget hdrawn.frame :).trans (hforget hlost.frame :)

/-! ### The commit that an event of the bay begins (R18, R91) -/

/-- The slot has begun a commit toward `o` in a READY store; the members of the slot in a takeover are
COMMITTING, and nothing else changes but the windows. -/
structure CommitBegun (s : State) (i : Slot) (o : Owner) (path : CommitPath) (t : State) : Prop where
  slot : t.slot i = { s.slot i with
    phase := .committing, owner := o, generation := succGen (s.slot i).generation
    target := some o, path := some path, batch := none, drainDeadline := none
    autoPending := none, storeLost := false, former := some (s.slot i).owner }
  others : ∀ j, j ≠ i → t.slot j = s.slot j
  store : t.store = { s.store with mode := .writing (s.commitUpdate i o) 1 s.now }
  members : path = .takeover → ∀ n, o = some n → ∀ m ∈ (t.batch n).members, m.slot = i → m.status = .committing
  frame : { t with slots := s.slots, windows := s.windows, batches := s.batches, store := s.store } = s

section
variable {s t : State} {i : Slot} {o : Owner} {path : CommitPath}

theorem CommitBegun.bay_eq (h : CommitBegun s i o path t) (j : Slot) : t.bay j = s.bay j :=
  (congrArg (fun x => State.bay x j) h.frame :)

theorem CommitBegun.engine_eq (h : CommitBegun s i o path t) (j : Slot) : t.engine j = s.engine j :=
  (congrArg (fun x => State.engine x j) h.frame :)

theorem CommitBegun.port_eq (h : CommitBegun s i o path t) (n : Node) : t.port n = s.port n :=
  (congrArg (fun x => State.port x n) h.frame :)

theorem CommitBegun.report_eq (h : CommitBegun s i o path t) (j : Slot) : t.report j = s.report j :=
  (congrArg (fun x => State.report x j) h.frame :)

end

theorem startCommit_begun {s : State} {i : Slot} {o : Owner} {p : CommitPath} (hm : s.store.mode = .ready)
    (hq : s.store.queue = []) (hp : p ≠ .takeover) : CommitBegun s i o p (startCommit i o p s) := by
  rw [startCommit_ready hm hq]
  refine ⟨?_, fun j hj => ?_, rfl, fun h => absurd h hp, rfl⟩
  · exact (beginCommit_slot s i o p i).trans (if_pos rfl)
  · exact (beginCommit_slot s i o p j).trans (if_neg hj)

/-- The members of the slot take the status; the others stand. -/
theorem mem_updateMember {i : Slot} {f : Member → Member} {ms : List Member} {k : Member} :
    k ∈ updateMember i f ms ↔ ∃ m ∈ ms, k = if m.slot = i then f m else m := by
  simp [updateMember, eq_comm]

theorem setMember_members (s : State) (n : Node) (i : Slot) (f : Member → Member) :
    ((s.setMember n i f).batch n).members = updateMember i f (s.batch n).members := by
  unfold State.setMember
  rw [State.setBatch_batch_same]

theorem takeoverCommit_begun {s : State} {i : Slot} {n : Node} (hm : s.store.mode = .ready)
    (hq : s.store.queue = []) : CommitBegun s i (some n) .takeover
      (startCommit i (some n) .takeover (s.setMember n i (fun k => { k with status := .committing }))) := by
  rw [startCommit_ready (by exact hm) (by exact hq)]
  refine ⟨?_, fun j hj => ?_, rfl, fun _ x hx k hk hki => ?_, rfl⟩
  · exact (beginCommit_slot (s.setMember n i _) i _ _ i).trans (if_pos rfl)
  · exact (beginCommit_slot (s.setMember n i _) i _ _ j).trans (if_neg hj)
  · cases hx
    have hk' : k ∈ ((s.setMember n i (fun k => { k with status := .committing })).batch n).members := hk
    rw [setMember_members] at hk'
    obtain ⟨m, -, rfl⟩ := mem_updateMember.1 hk'
    by_cases hms : m.slot = i
    · rw [if_pos hms]
    · rw [if_neg hms] at hki
      exact absurd hki hms

/-- What ends a drain or a handover toward `o` (R18, R91), in the terms of its slot record. -/
def SlotRec.Leaving (r : SlotRec) (o : Owner) (path : CommitPath) : Prop :=
  (∃ n, r.phase = .draining ∧ r.batch = some n ∧ o = some n ∧ path = .takeover) ∨
    (∃ x, r.phase = .handing ∧ r.owner = some x ∧ r.target = some o ∧
      path = if o.isSome then .handover else .release)

theorem handingCheck_commits {s : State} {i : Slot} {x : Node} {o : Owner} (hp : (s.slot i).phase = .handing)
    (ho : (s.slot i).owner = some x) (ht : (s.slot i).target = some o) (hx : (s.engine i).outstanding x = 0) :
    handingCheck i s = startCommit i o (if o.isSome then .handover else .release) s := by
  unfold handingCheck
  dsimp only
  rw [hp, ho, ht]
  exact if_pos hx

theorem drainCheck_commits {s : State} {i : Slot} {n : Node} (hp : (s.slot i).phase = .draining)
    (hb : (s.slot i).batch = some n) (ho : (s.engine i).orphans = 0) (hr : (s.bay i).state ≠ .resetting) :
    drainCheck i s = startCommit i (some n) .takeover
      (s.setMember n i (fun k => { k with status := .committing })) := by
  unfold drainCheck
  dsimp only
  rw [hp, hb]
  exact if_pos ⟨ho, hr⟩

theorem handoverPath_ne_takeover (o : Owner) : (if o.isSome then CommitPath.handover else .release) ≠ .takeover := by
  cases o <;> simp

/-- An event that leaves a bay that is not RESETTING with nothing outstanding commits the slot. -/
theorem checks_commit {s : State} {i : Slot} {o : Owner} {path : CommitPath} (hm : s.store.mode = .ready)
    (hq : s.store.queue = []) (hl : (s.slot i).Leaving o path) (ho : (s.engine i).orphans = 0)
    (hx : ∀ x, (s.engine i).outstanding x = 0) (hr : (s.bay i).state ≠ .resetting) :
    CommitBegun s i o path (drainCheck i (handingCheck i s)) := by
  rcases hl with ⟨n, hp, hb, rfl, rfl⟩ | ⟨x, hp, hown, ht, rfl⟩
  · rw [handing_off (by simp [hp]), drainCheck_commits hp hb ho hr]
    exact takeoverCommit_begun hm hq
  · rw [handingCheck_commits hp hown ht (hx x)]
    have hbegun := startCommit_begun (i := i) (o := o) hm hq (handoverPath_ne_takeover o)
    rw [drain_off (by rw [hbegun.slot]; simp)]
    exact hbegun

theorem outstanding_of_nil {e : Engine} (hw : e.waiting = []) (ht : e.tags = []) (x : Node) :
    e.outstanding x = 0 := by
  simp [Engine.outstanding, hw, ht]

theorem orphans_of_nil {e : Engine} (ht : e.tags = []) : e.orphans = 0 := by
  simp [Engine.orphans, ht]

/-! ### The three events -/

/-- The bay's part of an event leaves the slot records, the store, the time, the bay's recorded fingerprint
and the other bays as they are. -/
structure BayPart (s : State) (i : Slot) (v : State) : Prop where
  slots : v.slots = s.slots
  store : v.store = s.store
  time : v.time = s.time
  recorded : (v.bay i).recorded = (s.bay i).recorded
  oth : ∀ j, j ≠ i → v.bay j = s.bay j ∧ v.engine j = s.engine j

theorem BayPart.slot {s v : State} {i : Slot} (h : BayPart s i v) (j : Slot) : v.slot j = s.slot j := by
  unfold State.slot
  rw [h.slots]

theorem BayPart.of_butBay {s v : State} {i : Slot} (hframe : v.butBay s = s)
    (hrec : (v.bay i).recorded = (s.bay i).recorded)
    (hoth : ∀ j, j ≠ i → v.bay j = s.bay j ∧ v.engine j = s.engine j) : BayPart s i v :=
  ⟨(congrArg State.slots hframe :), (congrArg State.store hframe :), (congrArg State.time hframe :), hrec, hoth⟩

theorem ResetBegun.bayPart {s v : State} {i : Slot} {c : ResetCause} (h : ResetBegun s i c v) : BayPart s i v :=
  ⟨h.sl, h.sto, h.tim, by rw [h.bay], h.oth⟩

/-- What a commit that follows the bay's part of an event comes to, in the terms of the state before. -/
theorem CommitBegun.of_bayPart {s v t : State} {i : Slot} {o : Owner} {path : CommitPath}
    (h : CommitBegun v i o path t) (hv : BayPart s i v) :
    t.slot i = { s.slot i with
      phase := .committing, owner := o, generation := succGen (s.slot i).generation
      target := some o, path := some path, batch := none, drainDeadline := none
      autoPending := none, storeLost := false, former := some (s.slot i).owner } ∧
    t.store.mode = .writing (s.commitUpdate i o) 1 s.now ∧
    (path = .takeover → ∀ n, o = some n → ∀ m ∈ (t.batch n).members, m.slot = i → m.status = .committing) ∧
    (∀ j, j ≠ i → t.slot j = s.slot j ∧ t.engine j = s.engine j ∧ t.bay j = s.bay j) := by
  have hnow : v.now = s.now := congrArg Timebase.tick hv.time
  have hupdate : v.commitUpdate i o = s.commitUpdate i o := by
    unfold State.commitUpdate
    rw [hv.slot, hv.recorded]
  refine ⟨?_, ?_, h.members, fun j hj => ⟨?_, ?_, ?_⟩⟩
  · rw [h.slot, hv.slot]
  · rw [h.store, hupdate, hnow]
  · rw [h.others j hj, hv.slot]
  · rw [h.engine_eq, (hv.oth j hj).2]
  · rw [h.bay_eq, (hv.oth j hj).1]

/-- A link reset that reaches its limit, before the slot commits (R122). -/
theorem resetFails_spec (s : State) (i : Slot) : ∃ v, resetFails i s = drainCheck i (handingCheck i v) ∧
    v.butBay s = s ∧ v.reports = s.reports ∧
    v.bay i = { (s.bay i).fail with resetsFailed := satInc (s.bay i).resetsFailed } ∧
    v.engine i = { s.engine i with waiting := [] } ∧
    (∀ n, (s.port n).state = .up → (v.port n).unsent = (s.port n).unsent ++
      cplsFor n i .slotFaulted (s.slot i).generation (s.engine i).waiting) ∧
    ∀ j, j ≠ i → v.bay j = s.bay j ∧ v.engine j = s.engine j := by
  have hdrawn := withdraw_spec (s.setBay i (s.bay i).fail) i .slotFaulted
  refine ⟨_, rfl, ?_⟩
  generalize (s.setBay i (s.bay i).fail).withdraw i .slotFaulted = u at hdrawn ⊢
  have hbay : ∀ j, u.bay j = (s.setBay i (s.bay i).fail).bay j := fun j =>
    (congrArg (fun x => State.bay x j) hdrawn.frame :)
  refine ⟨(congrArg (·.butBay s) hdrawn.frame :), (congrArg State.reports hdrawn.frame :), ?_, hdrawn.eng,
    fun n hup => (hdrawn.port n).2 hup, fun j hj => ⟨?_, hdrawn.oth j hj⟩⟩
  · refine (State.setBay_bay_same u i _).trans ?_
    rw [hbay, State.setBay_bay_same]
    rfl
  · refine (State.setBay_bay u i _ j).trans ((if_neg hj).trans ?_)
    rw [hbay, State.setBay_bay, if_neg hj]

theorem exec_removal {s : State} {i : Slot} (hrun : s.running = true) (hd : (s.bay i).debounce = some s.now)
    (hin : (s.bay i).input = false) (hs : (s.bay i).state ≠ .empty) (hp : s.probing i = false) :
    exec (.removal i) s = .next (drainCheck i (handingCheck i (s.emptyBay i))) := by
  change Host.Outcome.next (whenRunning _ s) = _
  rw [whenRunning_on hrun, whenTrue_on (by simp [State.debounced, hd, hin, hs])]
  unfold remove
  dsimp only
  rw [hp]
  rfl

theorem exec_resetDeadline {s : State} {i : Slot} (hrun : s.running = true) (hs : (s.bay i).state = .resetting)
    (hd : (s.bay i).resetDeadline = some s.now) : exec (.resetDeadline i) s = .next (resetFails i s) := by
  change Host.Outcome.next (whenRunning _ s) = _
  rw [whenRunning_on hrun, whenTrue_on (by simp [hs, hd])]

/-- A link reset at a bay with no probe outstanding (R120). -/
theorem linkReset_noProbe {s : State} {i : Slot} {c : ResetCause} (hr : s.resettable i = true)
    (hp : s.probing i = false) : linkReset i c s = handingCheck i (s.beginReset i c) := by
  unfold linkReset
  rw [if_pos hr]
  dsimp only
  rw [hp]
  rfl

/-- R46: the outstanding commands of a node at a bay whose tag table is empty. -/
theorem outstanding_noTags {e : Engine} (ht : e.tags = []) (x : Node) :
    e.outstanding x = (e.waiting.filter (fun c => decide (c.node = x))).length := by
  simp [Engine.outstanding, ht]

/-- A link loss at a READY or SUSPECT bay with no probe outstanding (R123). -/
theorem exec_driveLinkLoss {s : State} {i : Slot} (hrun : s.running = true)
    (hs : (s.bay i).state = .ready ∨ (s.bay i).state = .suspect) (hp : s.probing i = false) :
    exec (.driveLinkLoss i) s = .next (handingCheck i
      ((s.setBay i { s.bay i with linkLosses := satInc (s.bay i).linkLosses }).beginReset i .linkLoss)) := by
  change Host.Outcome.next (whenRunning _ s) = _
  have hreset : (s.setBay i { s.bay i with linkLosses := satInc (s.bay i).linkLosses }).resettable i = true := by
    rw [Bay.resettable_iff, State.setBay_bay_same]
    exact hs
  rw [whenRunning_on hrun, ← linkReset_noProbe hreset hp]
  unfold driveLinkLoss
  rcases hs with hs | hs <;> simp only [hs]

theorem BayPart.setBay {s v : State} {i : Slot} {b : Bay}
    (h : BayPart (s.setBay i b) i v) (hb : b.recorded = (s.bay i).recorded) : BayPart s i v := by
  refine ⟨h.slots, h.store, h.time, ?_, fun j hj => ⟨?_, (h.oth j hj).2⟩⟩
  · rw [h.recorded, State.setBay_bay_same, hb]
  · rw [(h.oth j hj).1, State.setBay_bay, if_neg hj]

/-- Settles O40: the bay's part (`emptyBay_spec`, `resetFails_spec`, `beginReset_spec`) leaves nothing
outstanding, so that the slot commits (`checks_commit`). -/
theorem removalAndFailureCommitTheSlot : Obligations.RemovalAndFailureCommitTheSlot := by
  intro s i o path hrun hm hq hprobe hleaving committed hcommitted
  have key : ∀ v : State, BayPart s i v → (v.engine i).waiting = [] → (v.engine i).tags = [] →
      (v.bay i).state ≠ .resetting →
      CommitBegun v i o path (drainCheck i (handingCheck i v)) ∧ committed (drainCheck i (handingCheck i v)) := by
    intro v hv hw ht hr
    have hbegun := checks_commit (s := v) (by rw [hv.store]; exact hm) (by rw [hv.store]; exact hq)
      (by rw [hv.slot]; exact hleaving) (orphans_of_nil ht) (outstanding_of_nil hw ht) hr
    exact ⟨hbegun, (hcommitted _).2 (hbegun.of_bayPart hv)⟩
  refine ⟨fun hd hin hs => ⟨_, exec_removal hrun hd hin hs hprobe, ?_⟩, fun hs hd ht => ?_, fun x hp ho hs hw => ?_⟩
  · have hemptied := emptyBay_spec s i
    generalize s.emptyBay i = v at hemptied ⊢
    obtain ⟨hbegun, hdone⟩ := key v (.of_butBay hemptied.frame (by rw [hemptied.bay]; rfl) hemptied.oth)
      (by rw [hemptied.eng]) (by rw [hemptied.eng]) (by rw [hemptied.bay]; simp)
    generalize drainCheck i (handingCheck i v) = t at hbegun hdone ⊢
    refine ⟨hdone, by rw [hbegun.bay_eq, hemptied.bay], by rw [hbegun.engine_eq, hemptied.eng],
      by rw [hbegun.engine_eq, hemptied.eng], fun n hup => ?_, fun r hr => ?_⟩
    · rw [hbegun.port_eq]
      exact hemptied.port n hup
    · rw [hbegun.report_eq, hemptied.rep, hr]
      rfl
  · obtain ⟨v, hv, hframe, hreports, hbay, hengine, hports, hoth⟩ := resetFails_spec s i
    refine ⟨_, exec_resetDeadline hrun hs hd, ?_⟩
    rw [hv]
    obtain ⟨hbegun, hdone⟩ := key v (.of_butBay hframe (by rw [hbay]; rfl) hoth) (by rw [hengine])
      (by rw [hengine]; exact ht) (by rw [hbay]; simp [Bay.fail])
    generalize drainCheck i (handingCheck i v) = t at hbegun hdone ⊢
    refine ⟨hdone, by rw [hbegun.bay_eq, hbay]; rfl, by rw [hbegun.bay_eq, hbay]; rfl,
      by rw [hbegun.engine_eq, hengine], (congrArg State.reports hbegun.frame :).trans hreports, fun n hup => ?_⟩
    rw [hbegun.port_eq]
    exact hports n hup
  · refine ⟨_, exec_driveLinkLoss hrun hs hprobe, ?_⟩
    have hreset := beginReset_spec (s.setBay i { s.bay i with linkLosses := satInc (s.bay i).linkLosses }) i .linkLoss
    generalize (s.setBay i { s.bay i with linkLosses := satInc (s.bay i).linkLosses }).beginReset i .linkLoss = v
      at hreset ⊢
    have hpart : BayPart s i v := BayPart.setBay hreset.bayPart rfl
    obtain ⟨-, hdrain, -⟩ | ⟨y, -, howner, htarget, rfl⟩ := hleaving
    · exact absurd (hp.symm.trans hdrain) (by decide)
    cases ho.symm.trans howner
    have hout : (v.engine i).outstanding x = 0 := by
      rw [hreset.eng, outstanding_noTags rfl]
      exact congrArg List.length hw
    have hbegun := startCommit_begun (s := v) (i := i) (o := o) (by rw [hpart.store]; exact hm)
      (by rw [hpart.store]; exact hq) (handoverPath_ne_takeover o)
    rw [handingCheck_commits (by rw [hpart.slot]; exact hp) (by rw [hpart.slot]; exact ho)
      (by rw [hpart.slot]; exact htarget) hout]
    generalize startCommit i o _ v = t at hbegun ⊢
    exact ⟨(hcommitted t).2 (hbegun.of_bayPart hpart), by rw [hbegun.bay_eq, hreset.bay],
      by rw [hbegun.bay_eq, hreset.bay], by rw [hbegun.engine_eq, hreset.eng]⟩

end Sys2Proof.Machine
end

section
/-! The drain deadlines, the claimant's reset, the commit after it and the re-arming (R18, R19, R91, R92,
R107, R120, R121, R128). -/

namespace Sys2Proof.Machine

/-! ### A commit in a store that is not FAULTED -/

/-- R7: with the store not FAULTED the commit step changes the slot's record, its windows and the store. -/
theorem startCommit_open {s : State} {i : Slot} {o : Owner} {p : CommitPath} (h : s.store.mode ≠ .faulted) :
    startCommit i o p s = (s.beginCommit i o p).queueUpdate i true := by
  unfold startCommit startCommitWith
  dsimp only
  exact if_neg fun hf => h (of_decide_eq_true hf)

/-- An update touches the store alone (R159). -/
theorem queueUpdate_frame (s : State) (i : Slot) (w : Bool) : { s.queueUpdate i w with store := s.store } = s := by
  unfold State.queueUpdate
  split <;> rfl

theorem startCommit_open_frame {s : State} {i : Slot} {o : Owner} {p : CommitPath}
    (h : s.store.mode ≠ .faulted) :
    { startCommit i o p s with slots := s.slots, windows := s.windows, store := s.store } = s := by
  rw [startCommit_open h]
  exact (congrArg (fun u : State => { u with slots := s.slots, windows := s.windows, store := s.store })
    (queueUpdate_frame (s.beginCommit i o p) i true) :)

/-- R18: the check of a HANDING slot, with the store not FAULTED, changes no bay and no engine. -/
theorem handingCheck_open_frame {s : State} {i : Slot} (h : s.store.mode ≠ .faulted) :
    { handingCheck i s with slots := s.slots, windows := s.windows, store := s.store } = s := by
  unfold handingCheck
  dsimp only
  split
  · split
    · exact startCommit_open_frame h
    · rfl
  · rfl

theorem handingCheck_waits {s : State} {i : Slot} {x : Node} (ho : (s.slot i).owner = some x)
    (hx : (s.engine i).outstanding x ≠ 0) : handingCheck i s = s := by
  unfold handingCheck
  dsimp only
  split
  · rename_i y _ _ hy _
    cases ho.symm.trans hy
    exact if_neg hx
  · rfl

/-! ### The drain deadline of a HANDING slot (R19) -/

theorem exec_handingDrainDeadline {s : State} {i : Slot} (hrun : s.running = true)
    (hp : (s.slot i).phase = .handing) (hd : (s.slot i).drainDeadline = some s.now) :
    exec (.handingDrainDeadline i) s =
      .next (linkReset i .drainLimit (s.setSlot i { s.slot i with drainDeadline := none })) := by
  change Host.Outcome.next (whenRunning _ s) = _
  rw [whenRunning_on hrun, whenTrue_on (by simp [hp, hd])]
  rfl

theorem linkReset_off {s : State} {i : Slot} {c : ResetCause} (h1 : (s.bay i).state ≠ .ready)
    (h2 : (s.bay i).state ≠ .suspect) : linkReset i c s = s := by
  unfold linkReset
  exact if_neg (by simp [State.resettable, h1, h2])

/-- O52's first part: the reset of a READY or SUSPECT bay at the drain deadline of its HANDING slot. -/
theorem handingDeadline_resets {s : State} {i : Slot} {x : Node} {o : Owner} (hrun : s.running = true)
    (hp : (s.slot i).phase = .handing) (ho : (s.slot i).owner = some x) (ht : (s.slot i).target = some o)
    (hd : (s.slot i).drainDeadline = some s.now) (hprobe : s.probing i = false)
    (hs : (s.bay i).state = .ready ∨ (s.bay i).state = .suspect) (hm : s.store.mode ≠ .faulted) :
    ∃ t, exec (.handingDrainDeadline i) s = .next t ∧ (t.bay i).state = .resetting ∧
      (t.bay i).resetCause = some .drainLimit ∧ (t.engine i).tags = [] ∧
      (t.engine i).waiting = (s.engine i).waiting ∧
      ((s.engine i).waiting.filter (fun c => decide (c.node = x)) ≠ [] →
        t.slot i = { s.slot i with drainDeadline := none }) ∧
      ((s.engine i).waiting.filter (fun c => decide (c.node = x)) = [] → s.store.mode = .ready →
        s.store.queue = [] →
        (t.slot i).phase = .committing ∧ (t.slot i).owner = o ∧
        (t.slot i).generation = succGen (s.slot i).generation ∧
        t.store.mode = .writing (s.commitUpdate i o) 1 s.now) := by
  refine ⟨_, exec_handingDrainDeadline hrun hp hd, ?_⟩
  rw [linkReset_noProbe (by exact (Bay.resettable_iff s i).2 hs) (by exact hprobe)]
  have hreset := beginReset_spec (s.setSlot i { s.slot i with drainDeadline := none }) i .drainLimit
  generalize (s.setSlot i { s.slot i with drainDeadline := none }).beginReset i .drainLimit = v at hreset ⊢
  have hslot : v.slot i = { s.slot i with drainDeadline := none } := by
    rw [hreset.bayPart.slot, State.setSlot_slot_same]
  have hstore : v.store = s.store := hreset.sto
  have hframe := handingCheck_open_frame (s := v) (i := i) (by rw [hstore]; exact hm)
  have hbay : (handingCheck i v).bay i = v.bay i := (congrArg (fun u => State.bay u i) hframe :)
  have hengine : (handingCheck i v).engine i = v.engine i := (congrArg (fun u => State.engine u i) hframe :)
  have hout : (v.engine i).outstanding x = ((s.engine i).waiting.filter (fun c => decide (c.node = x))).length := by
    rw [hreset.eng, outstanding_noTags rfl]
    rfl
  refine ⟨by rw [hbay, hreset.bay], by rw [hbay, hreset.bay], by rw [hengine, hreset.eng],
    by rw [hengine, hreset.eng]; rfl, fun hne => ?_, fun hnil hready hqueue => ?_⟩
  · rw [handingCheck_waits (by rw [hslot]; exact ho) (by rw [hout]; simpa using hne), hslot]
  · have hbegun := startCommit_begun (s := v) (i := i) (o := o) (by rw [hstore]; exact hready)
      (by rw [hstore]; exact hqueue) (handoverPath_ne_takeover o)
    have hnow : v.now = s.now := congrArg Timebase.tick hreset.tim
    have hupdate : v.commitUpdate i o = s.commitUpdate i o := by
      unfold State.commitUpdate
      rw [hslot, hreset.bay]
      rfl
    rw [handingCheck_commits (by rw [hslot]; exact hp) (by rw [hslot]; exact ho) (by rw [hslot]; exact ht)
      (by rw [hout, hnil]; rfl), hbegun.slot, hbegun.store, hslot, hupdate, hnow]
    exact ⟨rfl, rfl, rfl, rfl⟩

/-! ### The drain deadline of a DRAINING slot (R92) -/

theorem exec_drainDeadline {s : State} {i : Slot} {n : Node} (hrun : s.running = true)
    (hp : (s.slot i).phase = .draining) (hb : (s.slot i).batch = some n)
    (hd : (s.slot i).drainDeadline = some s.now) :
    exec (.drainDeadline i) s = .next (if s.resettable i then
      (linkReset i .drainLimit s).raise n (some i) (.drainReset (s.engine i).orphans s.now) else s) := by
  change Host.Outcome.next (whenRunning _ s) = _
  rw [whenRunning_on hrun, whenTrue_on (by simp [hp, hd])]
  unfold drainExpires
  rw [hb, hd]

theorem raise_bay (s : State) (n : Node) (o : Option Slot) (b : NoticeBody) (i : Slot) :
    (s.raise n o b).bay i = s.bay i := rfl

theorem drainDeadline_resets {s : State} {i : Slot} {n : Node} (hrun : s.running = true)
    (hp : (s.slot i).phase = .draining) (hb : (s.slot i).batch = some n)
    (hd : (s.slot i).drainDeadline = some s.now) (hprobe : s.probing i = false)
    (hs : (s.bay i).state = .ready ∨ (s.bay i).state = .suspect) :
    ∃ t, exec (.drainDeadline i) s = .next t ∧ (t.bay i).state = .resetting ∧
      (t.bay i).resetCause = some .drainLimit ∧ (t.engine i).tags = [] ∧ t.slots = s.slots ∧
      (∀ r, s.report i = some r → t.report i = some { r with
        entries := r.entries.map (fun e => if e.fate = .pending then { e with fate := .abortedByReset } else e)
        resetUsed := if r.pending = 0 then r.resetUsed else some (.drainLimit, s.now) }) ∧
      ((s.notice n).on = true → (s.notice n).mask = 0 → (s.notice n).queue.length < 32 →
        (t.notice n).queue = (s.notice n).queue ++
          [{ slot := some i, tick := s.now, body := .drainReset (s.engine i).orphans s.now }]) := by
  have hres := (Bay.resettable_iff s i).2 hs
  refine ⟨_, exec_drainDeadline hrun hp hb hd, ?_⟩
  rw [if_pos hres, linkReset_still hres (by simp [hp]) hprobe]
  have hreset := beginReset_spec s i .drainLimit
  generalize s.beginReset i .drainLimit = v at hreset ⊢
  have hnotice : v.notice n = s.notice n := by
    unfold State.notice
    rw [hreset.noti]
  have hnow : v.now = s.now := congrArg Timebase.tick hreset.tim
  refine ⟨congrArg Bay.state hreset.bay, congrArg Bay.resetCause hreset.bay, congrArg Engine.tags hreset.eng,
    hreset.sl, fun r hr => ?_, fun hon hmask hlen => ?_⟩
  · refine hreset.rep.trans ?_
    rw [hr]
    rfl
  · rw [raise_queue _ _ _ _ (by rw [hnotice]; exact hon) (by rw [hnotice]; exact hmask)
      (by rw [hnotice]; exact hlen), hnotice, hnow]

/-- R128: the claimant of a DRAINING slot may reset its drive. -/
theorem claimantReset {s : State} {i : Slot} {n : Node} {id : BitVec 16} (ht : s.Takes n)
    (hp : (s.slot i).phase = .draining) (hb : (s.slot i).batch = some n) (hprobe : s.probing i = false)
    (hl : s.live n = true) (ho : (s.slot i).owner = some n.partner)
    (hs : (s.bay i).state = .ready ∨ (s.bay i).state = .suspect) :
    ∃ t, exec (.resetDrive n id i) s = .next t ∧ (t.bay i).state = .resetting ∧
      (t.bay i).resetCause = some .resetDrive ∧ (t.engine i).tags = [] ∧ t.slots = s.slots := by
  have hres := (Bay.resettable_iff s i).2 hs
  have hjudge : judgeResetDrive n i s = .done := by
    rcases hs with hs | hs <;> simp [judgeResetDrive, hl, ho, hp, hb, hs, hres]
  refine ⟨_, next_whenUp ht (if_pos hjudge), ?_⟩
  rw [linkReset_still hres (by simp [hp]) hprobe]
  have hreset := beginReset_spec s i .resetDrive
  generalize s.beginReset i .resetDrive = v at hreset ⊢
  rw [reply_up ((hreset.port n).1.trans ht.2)]
  exact ⟨congrArg Bay.state hreset.bay, congrArg Bay.resetCause hreset.bay, congrArg Engine.tags hreset.eng,
    hreset.sl⟩

/-! ### The identity after a reset (R91, R121) -/

theorem goodAnswer_zero {cap : Lba} (h : cap ≠ 0) : goodAnswer 0 cap = true := by
  unfold goodAnswer
  rw [decide_eq_true rfl, decide_eq_true h]
  rfl

theorem exec_identifyAnswer {s : State} {i : Slot} {fp : Fingerprint} {cap : Lba} (hrun : s.running = true)
    (ha : (s.bay i).awaits = .identity) (hc : cap ≠ 0) : exec (.identifyAnswer i 0 fp cap) s =
      .next ((drainCheck i (handingCheck i (s.identityTaken i fp cap))).arbiter i) := by
  change Host.Outcome.next (whenRunning _ s) = _
  rw [whenRunning_on hrun]
  unfold identifyAnswer
  rw [if_pos ha, if_pos (goodAnswer_zero hc)]

/-- R121: the bay after the answer of its recorded drive. -/
def Bay.identified (b : Bay) (fp : Fingerprint) (cap : Lba) : Bay :=
  { b with
    state := .ready, recorded := some fp, presented := none, capacity := some cap, bringupDeadline := none
    resetDeadline := none, resetCause := none, awaits := .nothing }

/-- R118, R121: the recorded drive answers after a reset: the bay is READY, and a HANDING slot is re-armed. -/
theorem identityTaken_recorded {s : State} {i : Slot} {fp : Fingerprint} (hs : (s.bay i).state = .resetting)
    (hr : (s.bay i).recorded = some fp) (cap : Lba) :
    s.identityTaken i fp cap = (s.setBay i ((s.bay i).identified fp cap)).rearmHanding i := by
  have hcompare : (s.setBay i { s.bay i with
      bringupDeadline := none, resetDeadline := none, resetCause := none
      awaits := .nothing }).compareIdentity i fp cap = s.setBay i ((s.bay i).identified fp cap) := by
    unfold State.compareIdentity
    rw [State.setBay_bay_same]
    dsimp only
    rw [hr]
    dsimp only
    rw [if_pos rfl]
    unfold State.becomeReady
    rw [State.setBay_setBay, State.setBay_bay_same]
    rfl
  unfold State.identityTaken
  dsimp only
  rw [hcompare, hs, State.setBay_bay_same]
  rfl

theorem rearmHanding_off {s : State} {i : Slot} (h : (s.slot i).phase ≠ .handing) : s.rearmHanding i = s := by
  unfold State.rearmHanding
  dsimp only
  split
  · rename_i hp _ _
    exact absurd hp h
  · rfl

theorem rearmHanding_rearms {s : State} {i : Slot} {x : Node} (hp : (s.slot i).phase = .handing)
    (ho : (s.slot i).owner = some x) (hd : (s.slot i).drainDeadline = none)
    (hk : (s.engine i).outstanding x ≠ 0) : s.rearmHanding i = s.setSlot i { s.slot i with
      drainDeadline := some (later s.now (drainLimit s.timing ((s.engine i).outstanding x))) } := by
  unfold State.rearmHanding
  dsimp only
  rw [hp, ho, hd]
  exact if_pos (Nat.pos_of_ne_zero hk)

theorem drainingCommits_afterReset {s : State} {i : Slot} {n : Node} {fp : Fingerprint} {cap : Lba}
    (hrun : s.running = true) (hp : (s.slot i).phase = .draining) (hb : (s.slot i).batch = some n)
    (hs : (s.bay i).state = .resetting) (ha : (s.bay i).awaits = .identity) (hc : cap ≠ 0)
    (hr : (s.bay i).recorded = some fp) (ht : (s.engine i).tags = []) (hquiet : s.Quiet i)
    (hm : s.store.mode = .ready) (hq : s.store.queue = []) :
    ∃ t, exec (.identifyAnswer i 0 fp cap) s = .next t ∧ (t.bay i).state = .ready ∧
      (t.bay i).capacity = some cap ∧ (t.slot i).phase = .committing ∧ (t.slot i).owner = some n ∧
      (t.slot i).generation = succGen (s.slot i).generation ∧
      t.store.mode = .writing (s.commitUpdate i (some n)) 1 s.now := by
  refine ⟨_, exec_identifyAnswer hrun ha hc, ?_⟩
  rw [identityTaken_recorded hs hr, rearmHanding_off (by simp [hp])]
  have hbay : (s.setBay i ((s.bay i).identified fp cap)).bay i = (s.bay i).identified fp cap :=
    State.setBay_bay_same _ _ _
  have hupdate : (s.setBay i ((s.bay i).identified fp cap)).commitUpdate i (some n) = s.commitUpdate i (some n) := by
    unfold State.commitUpdate
    rw [hbay, hr]
    rfl
  have hbegun := checks_commit (s := s.setBay i ((s.bay i).identified fp cap)) (i := i) (o := some n)
    (path := .takeover) hm hq (.inl ⟨n, hp, hb, rfl, rfl⟩) (orphans_of_nil ht)
    (outstanding_of_nil hquiet.1 ht) (by rw [hbay]; simp [Bay.identified])
  generalize drainCheck i (handingCheck i (s.setBay i ((s.bay i).identified fp cap))) = t at hbegun ⊢
  have hstill : t.arbiter i = t := arbiter_quiet (by unfold State.Quiet; rw [hbegun.engine_eq]; exact hquiet)
  rw [hstill, hbegun.bay_eq, hbay, hbegun.slot, hbegun.store, hupdate]
  exact ⟨rfl, rfl, rfl, rfl, rfl, rfl⟩

/-! ### The arbiter keeps what is outstanding (R46, R55) -/

/-- R46: a dispatch moves commands from the waiting list to the tag table. -/
theorem dispatchAll_outstanding (now : Tick) (x : Node) (cs : List Command) (ts : List TagEntry) :
    ((dispatchAll now cs ts).1.filter (fun c => decide (c.node = x))).length
      + ((dispatchAll now cs ts).2.1.filter (TagEntry.activeOf x)).length =
    (cs.filter (fun c => decide (c.node = x))).length + (ts.filter (TagEntry.activeOf x)).length := by
  induction cs generalizing ts with
  | nil => rfl
  | cons c cs ih =>
    unfold dispatchAll
    split
    · rfl
    · rename_i k _
      dsimp only
      rw [ih, List.filter_append, List.length_append, List.filter_cons]
      by_cases hc : c.node = x
      · simp [TagEntry.activeOf, hc]
        omega
      · simp [TagEntry.activeOf, hc]

theorem serveWaiting_outstanding (s : State) (i : Slot) (x : Node) :
    ((s.serveWaiting i).engine i).outstanding x = (s.engine i).outstanding x := by
  unfold State.serveWaiting
  dsimp only
  split
  · rw [State.toDrive_engine, State.setEngine_engine_same]
    exact dispatchAll_outstanding _ x _ _
  · rfl

theorem serveProbe_outstanding (s : State) (i : Slot) (x : Node) :
    ((s.serveProbe i).engine i).outstanding x = (s.engine i).outstanding x := by
  unfold State.serveProbe
  dsimp only
  split
  · split
    · rw [State.setSweep_engine, State.toDrive_engine, State.setEngine_engine_same]
      simp [Engine.outstanding, TagEntry.activeOf]
    · rfl
  · rfl

theorem arbiter_outstanding (s : State) (i : Slot) (x : Node) :
    ((s.arbiter i).engine i).outstanding x = (s.engine i).outstanding x :=
  (serveWaiting_outstanding _ i x).trans (serveProbe_outstanding s i x)

/-- The arbiter touches engines, drive links and the sweep (R55 to R57). -/
theorem arbiter_frame (s : State) (i : Slot) :
    { s.arbiter i with engines := s.engines, driveOut := s.driveOut, sweep := s.sweep } = s := by
  have hprobe : { s.serveProbe i with engines := s.engines, driveOut := s.driveOut, sweep := s.sweep } = s := by
    unfold State.serveProbe
    dsimp only
    split
    · split <;> rfl
    · rfl
  unfold State.arbiter State.serveWaiting
  dsimp only
  split
  · exact hprobe
  · exact hprobe

theorem handingRearmed_afterReset {s : State} {i : Slot} {x : Node} {fp : Fingerprint} {cap : Lba} {k : Nat}
    (hrun : s.running = true) (hp : (s.slot i).phase = .handing) (ho : (s.slot i).owner = some x)
    (hd : (s.slot i).drainDeadline = none) (hs : (s.bay i).state = .resetting)
    (ha : (s.bay i).awaits = .identity) (hc : cap ≠ 0) (hr : (s.bay i).recorded = some fp)
    (hk : k = (s.engine i).outstanding x) (h0 : k ≠ 0) :
    ∃ t, exec (.identifyAnswer i 0 fp cap) s = .next t ∧ (t.bay i).state = .ready ∧
      t.slot i = { s.slot i with
        drainDeadline := some (s.now + BitVec.ofNat 32 (drainLimit s.timing k)) } ∧
      (∀ j, j ≠ i → t.slot j = s.slot j) ∧ t.store = s.store ∧ (t.engine i).outstanding x = k := by
  subst hk
  refine ⟨_, exec_identifyAnswer hrun ha hc, ?_⟩
  rw [identityTaken_recorded hs hr, rearmHanding_rearms (x := x) (by exact hp) (by exact ho) (by exact hd) (by exact h0)]
  generalize hv : (s.setBay i ((s.bay i).identified fp cap)).setSlot i _ = v
  have hslot : v.slot i = { s.slot i with
      drainDeadline := some (s.now + BitVec.ofNat 32 (drainLimit s.timing ((s.engine i).outstanding x))) } := by
    rw [← hv]
    exact State.setSlot_slot_same _ i _
  have hbay : v.bay i = (s.bay i).identified fp cap := by
    rw [← hv]
    exact State.setBay_bay_same s i _
  have hengine : v.engine i = s.engine i := by rw [← hv]; rfl
  have hframe := arbiter_frame v i
  rw [handingCheck_waits (x := x) (by rw [hslot]; exact ho) (by rw [hengine]; exact h0),
    drain_off (by rw [hslot]; simp [hp])]
  refine ⟨?_, ?_, fun j hj => ?_, ?_, ?_⟩
  · have : (v.arbiter i).bay i = v.bay i := (congrArg (fun u => State.bay u i) hframe :)
    rw [this, hbay]
    rfl
  · have : (v.arbiter i).slot i = v.slot i := (congrArg (fun u => State.slot u i) hframe :)
    rw [this, hslot]
  · have : (v.arbiter i).slot j = v.slot j := (congrArg (fun u => State.slot u j) hframe :)
    rw [this, ← hv, State.setSlot_slot, if_neg hj]
    rfl
  · have : (v.arbiter i).store = v.store := (congrArg State.store hframe :)
    rw [this, ← hv]
    rfl
  · rw [arbiter_outstanding, hengine]

/-- Settles O52: the two deadlines, the claimant's reset, the commit and the re-arming after a reset. -/
theorem drainDeadlinesResetTheLink : Obligations.DrainDeadlinesResetTheLink := by
  refine ⟨fun s i x o hrun hp ho ht hd hprobe => ⟨fun h1 h2 => ?_, fun hs hm =>
      handingDeadline_resets hrun hp ho ht hd hprobe hs hm⟩,
    fun s i n d hrun hp hb hd hprobe => ⟨?_, fun id ht hl ho hs => claimantReset ht hp hb hprobe hl ho hs,
      fun fp cap hs ha hc hr ht hquiet hm hq =>
        drainingCommits_afterReset hrun hp hb hs ha hc hr ht hquiet hm hq⟩,
    fun s i x fp cap k hrun hp ho hd hs ha hc hr hk h0 =>
      handingRearmed_afterReset hrun hp ho hd hs ha hc hr hk h0⟩
  · rw [exec_handingDrainDeadline hrun hp hd, linkReset_off (by exact h1) (by exact h2)]
  · rintro rfl
    refine ⟨fun h1 h2 => ?_, fun hs => drainDeadline_resets hrun hp hb hd hprobe hs⟩
    rw [exec_drainDeadline hrun hp hb hd, if_neg (by simp [State.resettable, h1, h2])]

end Sys2Proof.Machine
end

section
/-! RELEASE and HANDOVER (R15 to R17): what each slot of the mask comes to, and the reply. -/

namespace Sys2Proof.Machine

/-- The target of a HANDOVER or of a RELEASE (R15, R16). -/
def giveTarget (n : Node) (hand : Bool) : Owner := if hand then some n.partner else none

/-- The commit path of a HANDOVER or of a RELEASE. -/
def givePath (hand : Bool) : CommitPath := if hand then .handover else .release

/-- The notice a completed HANDOVER or RELEASE raises to both nodes (R144). -/
def giveBody (n : Node) (hand : Bool) (g : Gen) : NoticeBody :=
  if hand then .slotHanded (some n.partner) g else .slotReleased (some n) g

/-! ### One slot -/

theorem judgeGive_done_iff (n : Node) (i : Slot) (s : State) : judgeGive n i s = .done ↔
    (s.slot i).owner = some n ∧ (s.slot i).phase = .owned ∧ (s.bay i).state ≠ .held := by
  unfold judgeGive
  dsimp only
  by_cases ho : (s.slot i).owner = some n
  · by_cases hp : (s.slot i).phase = .owned
    · by_cases hb : (s.bay i).state = .held <;> simp [ho, hp, hb]
    · simp [ho, hp]
  · simp [ho]

/-- The element of the reply for a slot (R15). -/
def State.givenOf (s : State) (n : Node) (i : Slot) : Given :=
  if (s.slot i).owner ≠ some n then ⟨i, .notOwner, none, none⟩
  else if (s.slot i).phase ≠ .owned ∨ (s.bay i).state = .held then ⟨i, .wrongState, none, none⟩
  else ⟨i, .done, some ((s.engine i).outstanding n),
    if (s.engine i).outstanding n = 0 then none
    else some (s.now + BitVec.ofNat 32 (drainLimit s.timing ((s.engine i).outstanding n)))⟩

theorem givenOf_done {s : State} {n : Node} {i : Slot} (h : judgeGive n i s = .done) : s.givenOf n i =
    ⟨i, .done, some ((s.engine i).outstanding n), if (s.engine i).outstanding n = 0 then none
      else some (later s.now (drainLimit s.timing ((s.engine i).outstanding n)))⟩ := by
  obtain ⟨ho, hp, hb⟩ := (judgeGive_done_iff n i s).1 h
  unfold State.givenOf
  rw [if_neg (by simp [ho]), if_neg (by simp [hp, hb])]
  rfl

theorem givenOf_refused {s : State} {n : Node} {i : Slot} (h : judgeGive n i s ≠ .done) :
    s.givenOf n i = ⟨i, judgeGive n i s, none, none⟩ := by
  rw [Ne, judgeGive_done_iff] at h
  unfold State.givenOf judgeGive
  dsimp only
  by_cases ho : (s.slot i).owner = some n
  · by_cases hp : (s.slot i).phase = .owned
    · have hb : (s.bay i).state = .held := by
        by_contra hb
        exact h ⟨ho, hp, hb⟩
      simp [ho, hp, hb]
    · simp [ho, hp]
  · simp [ho]

theorem givenOf_result (s : State) (n : Node) (i : Slot) : (s.givenOf n i).result = judgeGive n i s := by
  by_cases h : judgeGive n i s = .done
  · rw [givenOf_done h, h]
  · rw [givenOf_refused h]

theorem givenOf_count_zero (s : State) (n : Node) (i : Slot) :
    (s.givenOf n i).count = some 0 ↔ judgeGive n i s = .done ∧ (s.engine i).outstanding n = 0 := by
  by_cases h : judgeGive n i s = .done
  · simp [givenOf_done h, h]
  · simp [givenOf_refused h, h]

/-- R17, R8: the record of a slot of the mask after the request. -/
def State.slotGiven (s : State) (n : Node) (hand : Bool) (i : Slot) : SlotRec :=
  if judgeGive n i s = .done then
    if (s.engine i).outstanding n = 0 then
      if s.storeFaulted then ((s.slot i).begin (giveTarget n hand) (givePath hand)).rest
      else (s.slot i).begin (giveTarget n hand) (givePath hand)
    else (s.slot i).enter .handing (some (giveTarget n hand)) none none
      (some (later s.now (drainLimit s.timing ((s.engine i).outstanding n))))
  else s.slot i

/-- The notices that a request raises to both nodes while the store is FAULTED (R9). -/
def State.toldGiven (s : State) (n : Node) (hand : Bool) (is : List Slot) : List Notice :=
  (is.filter (fun i => decide ((s.givenOf n i).count = some 0))).map (fun i =>
    { slot := some i, tick := s.now, body := giveBody n hand (succGen (s.slot i).generation) })

/-- What RELEASE and HANDOVER of the slots `is` change: their records, windows, the store and, while that is
FAULTED, the notice queues in place of the store. -/
structure GaveSlots (s : State) (n : Node) (hand : Bool) (is : List Slot) (t : State) : Prop where
  frame : { t with slots := s.slots, windows := s.windows, store := s.store, notices := s.notices } = s
  slot : ∀ j, t.slot j = if j ∈ is then s.slotGiven n hand j else s.slot j
  faulted : t.storeFaulted = s.storeFaulted
  store : s.store.mode = .faulted → t.store = s.store
  told : s.store.mode = .faulted → ∀ m, (s.notice m).on = true → (s.notice m).mask = 0 →
    (s.notice m).queue.length + (s.toldGiven n hand is).length ≤ 32 →
    (t.notice m).queue = (s.notice m).queue ++ s.toldGiven n hand is ∧ (t.notice m).on = true ∧
      (t.notice m).mask = 0

theorem GaveSlots.nil (s : State) (n : Node) (hand : Bool) : GaveSlots s n hand [] s := by
  refine ⟨rfl, fun j => by simp, rfl, fun _ => rfl, fun _ m hon hmask _ => ⟨?_, hon, hmask⟩⟩
  simp [State.toldGiven]

section
variable {s t : State} {n : Node} {hand : Bool} {is : List Slot}

theorem GaveSlots.bay (h : GaveSlots s n hand is t) (j : Slot) : t.bay j = s.bay j :=
  (congrArg (fun u => State.bay u j) h.frame :)

theorem GaveSlots.engine (h : GaveSlots s n hand is t) (j : Slot) : t.engine j = s.engine j :=
  (congrArg (fun u => State.engine u j) h.frame :)

theorem GaveSlots.port (h : GaveSlots s n hand is t) (m : Node) : t.port m = s.port m :=
  (congrArg (fun u => State.port u m) h.frame :)

theorem GaveSlots.now (h : GaveSlots s n hand is t) : t.now = s.now := (congrArg State.now h.frame :)

theorem GaveSlots.timing (h : GaveSlots s n hand is t) : t.timing = s.timing := (congrArg State.timing h.frame :)

theorem GaveSlots.gone (h : GaveSlots s n hand is t) (m : Node) : t.gone m = s.gone m :=
  (congrArg (fun u => State.gone u m) h.frame :)

/-- The other slots are judged as before. -/
theorem GaveSlots.judge (h : GaveSlots s n hand is t) {j : Slot} (hj : j ∉ is) :
    judgeGive n j t = judgeGive n j s := by
  unfold judgeGive
  rw [h.slot, if_neg hj, h.bay]

theorem GaveSlots.givenOf (h : GaveSlots s n hand is t) {j : Slot} (hj : j ∉ is) :
    t.givenOf n j = s.givenOf n j := by
  unfold State.givenOf
  rw [h.slot, if_neg hj, h.bay, h.engine, h.now, h.timing]

theorem GaveSlots.slotGiven (h : GaveSlots s n hand is t) {j : Slot} (hj : j ∉ is) :
    t.slotGiven n hand j = s.slotGiven n hand j := by
  unfold State.slotGiven
  rw [h.judge hj, h.slot, if_neg hj, h.engine, h.faulted, h.now, h.timing]

theorem GaveSlots.toldGiven (h : GaveSlots s n hand is t) {js : List Slot} (hj : ∀ j ∈ js, j ∉ is) :
    t.toldGiven n hand js = s.toldGiven n hand js := by
  unfold State.toldGiven
  have hfilter : js.filter (fun i => decide ((t.givenOf n i).count = some 0)) =
      js.filter (fun i => decide ((s.givenOf n i).count = some 0)) :=
    List.filter_congr fun j hm => by rw [h.givenOf (hj j hm)]
  rw [hfilter]
  refine List.map_congr_left fun j hm => ?_
  rw [h.slot, if_neg (hj j (List.mem_of_mem_filter hm)), h.now]

end

theorem toldGiven_cons (s : State) (n : Node) (hand : Bool) (i : Slot) (is : List Slot) :
    s.toldGiven n hand (i :: is) = s.toldGiven n hand [i] ++ s.toldGiven n hand is := by
  unfold State.toldGiven
  rw [← List.map_append, ← List.filter_append]
  rfl

/-- One slot and then the others. -/
theorem GaveSlots.cons {s u t : State} {n : Node} {hand : Bool} {i : Slot} {is : List Slot}
    (h : GaveSlots s n hand [i] u) (k : GaveSlots u n hand is t) (hi : i ∉ is) :
    GaveSlots s n hand (i :: is) t := by
  have hother : ∀ j ∈ is, j ∉ [i] := by
    rintro j hj hmem
    exact hi (List.mem_singleton.1 hmem ▸ hj)
  refine ⟨?_, fun j => ?_, k.faulted.trans h.faulted, fun hf => ?_, fun hf m hon hmask hlen => ?_⟩
  · exact (congrArg (fun x : State => { x with
      slots := s.slots, windows := s.windows, store := s.store, notices := s.notices }) k.frame :).trans h.frame
  · rw [k.slot]
    by_cases hj : j ∈ is
    · rw [if_pos hj, if_pos (List.mem_cons_of_mem i hj), h.slotGiven (hother j hj)]
    · rw [if_neg hj, h.slot]
      simp [hj]
  · exact (k.store (by rw [h.store hf]; exact hf)).trans (h.store hf)
  · rw [toldGiven_cons, List.length_append] at hlen
    obtain ⟨hqueue, hon', hmask'⟩ := h.told hf m hon hmask (by omega)
    have hrest := h.toldGiven (js := is) hother
    obtain ⟨hqueue', hend⟩ := k.told (by rw [h.store hf]; exact hf) m hon' hmask'
      (by rw [hqueue, hrest, List.length_append]; omega)
    refine ⟨?_, hend⟩
    rw [hqueue', hqueue, hrest, toldGiven_cons s n hand i is, List.append_assoc]

/-! ### The step of one slot -/

/-- R8, R9: a commit that ends at the event that begins it, toward a target that is not gone. -/
theorem giveCommit_faulted {s : State} {n : Node} {hand : Bool} {i : Slot} (hf : s.store.mode = .faulted)
    (ho : (s.slot i).owner = some n) (hg : hand = true → s.gone n.partner = false) :
    startCommit i (giveTarget n hand) (givePath hand) s =
      ((s.beginCommit i (giveTarget n hand) (givePath hand)).setSlot i
        ((s.slot i).begin (giveTarget n hand) (givePath hand)).rest).raiseBoth (some i)
        (giveBody n hand (succGen (s.slot i).generation)) := by
  rw [startCommit_faulted hf]
  have hslot : (s.beginCommit i (giveTarget n hand) (givePath hand)).slot i =
      (s.slot i).begin (giveTarget n hand) (givePath hand) := (beginCommit_slot s i _ _ i).trans (if_pos rfl)
  obtain ⟨-, hrelease, hhand, -⟩ := commitDone_ends (stored := false) (by rw [hslot]; rfl :
    ((s.beginCommit i (giveTarget n hand) (givePath hand)).slot i).phase = .committing) _ _ rfl rfl
  cases hand with
  | true =>
    rw [hhand n.partner (by rw [hslot]; rfl) (by rw [hslot]; rfl) (by exact hg rfl), hslot]
    rfl
  | false =>
    rw [hrelease n (by rw [hslot]; rfl) (by rw [hslot]; rfl) (by rw [hslot, SlotRec.begin, ho]), hslot]
    rfl

/-- A notice raised to both nodes leaves each queue on and unmasked. -/
theorem raiseBoth_notice (s : State) (o : Option Slot) (b : NoticeBody) (m : Node) :
    (s.raiseBoth o b).notice m = (s.notice m).push { slot := o, tick := s.now, body := b } := by
  cases m <;> rfl

theorem push_on_mask (q : NoticeQueue) (x : Notice) : (q.push x).on = q.on ∧ (q.push x).mask = q.mask := by
  unfold NoticeQueue.push
  dsimp only
  split
  · exact ⟨rfl, rfl⟩
  · split <;> exact ⟨rfl, rfl⟩

theorem toldGiven_one_of {s : State} {n : Node} {hand : Bool} {i : Slot}
    (h : judgeGive n i s = .done) (h0 : (s.engine i).outstanding n = 0) : s.toldGiven n hand [i] =
      [{ slot := some i, tick := s.now, body := giveBody n hand (succGen (s.slot i).generation) }] := by
  simp [State.toldGiven, (givenOf_count_zero s n i).2 ⟨h, h0⟩]

theorem toldGiven_none_of {s : State} {n : Node} {hand : Bool} {i : Slot}
    (h : ¬(judgeGive n i s = .done ∧ (s.engine i).outstanding n = 0)) : s.toldGiven n hand [i] = [] := by
  rw [← givenOf_count_zero] at h
  simp [State.toldGiven, h]

/-- A slot that stands: nothing happens for it. -/
theorem GaveSlots.refused {s : State} {n : Node} {i : Slot} (h : judgeGive n i s ≠ .done) (hand : Bool) :
    GaveSlots s n hand [i] s := by
  refine ⟨rfl, fun j => ?_, rfl, fun _ => rfl, fun _ m hon hmask _ => ⟨?_, hon, hmask⟩⟩
  · by_cases hj : j = i
    · subst hj
      simp [State.slotGiven, h]
    · simp [hj]
  · rw [toldGiven_none_of (fun hd => h hd.1), List.append_nil]

/-- The slot's record in a state that replaces it. -/
theorem slotGiven_singleton {s t : State} {n : Node} {hand : Bool} {i : Slot} {r : SlotRec}
    (hr : s.slotGiven n hand i = r) (ht : ∀ j, t.slot j = if j = i then r else s.slot j) (j : Slot) :
    t.slot j = if j ∈ [i] then s.slotGiven n hand j else s.slot j := by
  rw [ht]
  by_cases hj : j = i
  · subst hj
    simp [hr]
  · simp [hj]

theorem storeFaulted_iff (s : State) : s.storeFaulted = true ↔ s.store.mode = .faulted := by
  simp [State.storeFaulted]

/-- R159: an update leaves a store that is not FAULTED so. -/
theorem queueUpdate_storeFaulted {s : State} (h : s.store.mode ≠ .faulted) (i : Slot) (w : Bool) :
    (s.queueUpdate i w).storeFaulted = s.storeFaulted := by
  unfold State.queueUpdate
  cases hm : s.store.mode with
  | faulted => exact absurd hm h
  | ready =>
    dsimp only
    cases hq : enqueue _ s.store.queue <;> simp [State.storeFaulted, Store.kick, hm]
  | writing u k d => simp [State.storeFaulted, Store.kick, hm]

theorem GaveSlots.enter {s : State} {n : Node} {hand : Bool} {i : Slot} (h : judgeGive n i s = .done)
    (hg : hand = true → s.gone n.partner = false) : GaveSlots s n hand [i]
      (enterHandover i (giveTarget n hand) (givePath hand) ((s.engine i).outstanding n) s) := by
  unfold enterHandover
  obtain ⟨ho, -, -⟩ := (judgeGive_done_iff n i s).1 h
  by_cases h0 : (s.engine i).outstanding n = 0
  · rw [if_pos h0]
    by_cases hf : s.store.mode = .faulted
    · have hrec : s.slotGiven n hand i = ((s.slot i).begin (giveTarget n hand) (givePath hand)).rest := by
        simp [State.slotGiven, h, h0, State.storeFaulted, hf]
      rw [giveCommit_faulted hf ho hg]
      refine ⟨rfl, slotGiven_singleton hrec fun j => ?_, rfl, fun _ => rfl, fun _ m hon hmask hlen => ?_⟩
      · refine (State.setSlot_slot _ i _ j).trans ?_
        by_cases hj : j = i
        · rw [if_pos hj, if_pos hj]
        · rw [if_neg hj, if_neg hj]
          exact (beginCommit_slot s i _ _ j).trans (if_neg hj)
      · rw [toldGiven_one_of h h0] at hlen ⊢
        have hroom : (s.notice m).queue.length < 32 := by simpa [Nat.succ_le_iff] using hlen
        refine ⟨raiseBoth_queue _ _ _ m hon hmask hroom, ?_⟩
        rw [raiseBoth_notice]
        obtain ⟨hon', hmask'⟩ := push_on_mask (s.notice m)
          { slot := some i, tick := s.now, body := giveBody n hand (succGen (s.slot i).generation) }
        exact ⟨hon'.trans hon, hmask'.trans hmask⟩
    · have hrec : s.slotGiven n hand i = (s.slot i).begin (giveTarget n hand) (givePath hand) := by
        simp [State.slotGiven, h, h0, State.storeFaulted, hf]
      rw [startCommit_open hf]
      refine ⟨?_, slotGiven_singleton hrec fun j => ?_, ?_, fun hf' => absurd hf' hf, fun hf' => absurd hf' hf⟩
      · exact (congrArg (fun u : State => { u with
          slots := s.slots, windows := s.windows, store := s.store, notices := s.notices })
          (queueUpdate_frame (s.beginCommit i _ _) i true) :)
      · have hslots := queueUpdate_slots (s.beginCommit i (giveTarget n hand) (givePath hand)) i true
        unfold State.slot
        rw [hslots]
        exact beginCommit_slot s i _ _ j
      · exact queueUpdate_storeFaulted (s := s.beginCommit i _ _) hf i true
  · rw [if_neg h0]
    have hrec : s.slotGiven n hand i = (s.slot i).enter .handing (some (giveTarget n hand)) none none
        (some (later s.now (drainLimit s.timing ((s.engine i).outstanding n)))) := by
      simp [State.slotGiven, h, h0]
    refine ⟨rfl, slotGiven_singleton hrec (State.setSlot_slot s i _), rfl, fun _ => rfl,
      fun _ m hon hmask _ => ⟨?_, hon, hmask⟩⟩
    rw [toldGiven_none_of (fun hd => h0 hd.2), List.append_nil]
    rfl

/-! ### The slots of the mask -/

/-- R15, R16: the slots of a list without repeats, each judged on its own. -/
theorem giveSlots_gave {n : Node} {hand : Bool} (is : List Slot) (s : State) (hnodup : is.Nodup)
    (hg : hand = true → s.gone n.partner = false) :
    GaveSlots s n hand is (giveSlots n (giveTarget n hand) (givePath hand) is s).1 ∧
    (giveSlots n (giveTarget n hand) (givePath hand) is s).2 = is.map (s.givenOf n) := by
  induction is generalizing s with
  | nil => exact ⟨.nil s n hand, rfl⟩
  | cons i is ih =>
    obtain ⟨hi, hrest⟩ := List.nodup_cons.1 hnodup
    have hother : ∀ j ∈ is, j ∉ [i] := by
      rintro j hj hmem
      exact hi (List.mem_singleton.1 hmem ▸ hj)
    unfold giveSlots
    dsimp only
    by_cases hj : judgeGive n i s = .done
    · have hone := GaveSlots.enter (hand := hand) hj hg
      obtain ⟨hgave, hlist⟩ := ih _ hrest fun hh => (hone.gone _).trans (hg hh)
      rw [if_pos hj]
      refine ⟨hone.cons hgave hi, ?_⟩
      have hmap := List.map_congr_left fun j hm => hone.givenOf (hother j hm)
      rw [List.map_cons, givenOf_done hj, hj]
      exact congrArg (List.cons _) (hlist.trans hmap)
    · have hone := GaveSlots.refused hj hand
      obtain ⟨hgave, hlist⟩ := ih s hrest hg
      rw [if_neg hj]
      refine ⟨hone.cons hgave hi, ?_⟩
      rw [hlist, List.map_cons, givenOf_refused hj]

theorem slotsIn_nodup (m : SlotMask) : (slotsIn m).Nodup := List.Nodup.filter _ (by decide)

theorem mem_slotsIn (m : SlotMask) (i : Slot) : i ∈ slotsIn m ↔ m.getLsbD i.val = true := by
  rw [slotsIn, List.mem_filter]
  exact and_iff_right (mem_allSlots i)

/-- A slot of the mask has its record from the request; a slot not given stands. -/
theorem GaveSlots.slot_mem {s t : State} {n : Node} {hand : Bool} {mask : SlotMask} {i : Slot}
    (h : GaveSlots s n hand (slotsIn mask) t) (hi : mask.getLsbD i.val = true) :
    t.slot i = s.slotGiven n hand i := (h.slot i).trans (if_pos ((mem_slotsIn mask i).2 hi))

theorem GaveSlots.slot_stands {s t : State} {n : Node} {hand : Bool} {mask : SlotMask} {i : Slot}
    (h : GaveSlots s n hand (slotsIn mask) t)
    (hi : ¬(mask.getLsbD i.val = true ∧ judgeGive n i s = .done)) : t.slot i = s.slot i := by
  rw [h.slot]
  by_cases hm : i ∈ slotsIn mask
  · rw [if_pos hm, State.slotGiven, if_neg fun hd => hi ⟨(mem_slotsIn mask i).1 hm, hd⟩]
  · rw [if_neg hm]

/-! ### The request -/

/-- R15: the reply is DONE when some slot of the mask is. -/
theorem givenAny_iff (s : State) (n : Node) (mask : SlotMask) :
    ((slotsIn mask).map (s.givenOf n)).any (fun x => decide (x.result = .done)) = true ↔
      ∃ i : Slot, mask.getLsbD i.val = true ∧ (s.slot i).owner = some n ∧ (s.slot i).phase = .owned ∧
        (s.bay i).state ≠ .held := by
  simp only [List.any_map, List.any_eq_true, Function.comp_apply, mem_slotsIn, givenOf_result,
    decide_eq_true_eq, judgeGive_done_iff]

/-- R15, R16: a taken request: the slots of its mask, then the reply. -/
theorem give_gave {s : State} {n : Node} {hand : Bool} (hup : (s.port n).state = .up)
    (hg : hand = true → s.gone n.partner = false) (id : BitVec 16) (code : Byte) (mask : SlotMask) :
    ∃ u, GaveSlots s n hand (slotsIn mask) u ∧
      give n id code (giveTarget n hand) (givePath hand) mask s = u.answered n id code
        (if ∃ i : Slot, mask.getLsbD i.val = true ∧ (s.slot i).owner = some n ∧ (s.slot i).phase = .owned ∧
          (s.bay i).state ≠ .held then .done else .refused)
        (listItem givenItem ((slotsIn mask).map (s.givenOf n))) := by
  obtain ⟨hgave, hlist⟩ := giveSlots_gave (slotsIn mask) s (slotsIn_nodup mask) hg
  refine ⟨_, hgave, ?_⟩
  unfold give
  dsimp only
  rw [hlist, reply_up (by rw [hgave.port]; exact hup)]
  simp only [givenAny_iff]

/-- The request of the catalog that gives slots away. -/
def giveInstr (n : Node) (id : BitVec 16) (mask : SlotMask) (hand : Bool) : Instr :=
  if hand then .handover n id mask else .release n id mask

def giveCode (hand : Bool) : Byte := if hand then 0x23 else 0x22

section
variable {s : State} {n : Node}

theorem giveInstr_emptyMask (ht : s.Takes n) (id : BitVec 16) (hand : Bool) :
    exec (giveInstr n id 0 hand) s = .next (s.answered n id (giveCode hand) .badRequest []) := by
  cases hand <;> exact next_whenUp ht (reply_up ht.2 _ _ _ _)

theorem giveInstr_notLive (ht : s.Takes n) {mask : SlotMask} (hm : mask ≠ 0) (hl : s.live n = false)
    (id : BitVec 16) (hand : Bool) :
    exec (giveInstr n id mask hand) s = .next (s.answered n id (giveCode hand) .noLease []) := by
  have hl' : (!s.live n) = true := by simp [hl]
  cases hand with
  | true => exact next_whenUp ht (by rw [if_neg hm, if_pos hl']; exact reply_up ht.2 _ _ _ _)
  | false => exact next_whenUp ht (by rw [if_neg hm, if_pos hl']; exact reply_up ht.2 _ _ _ _)

theorem giveInstr_partnerNotLive (ht : s.Takes n) {mask : SlotMask} (hm : mask ≠ 0) (hl : s.live n = true)
    (hp : s.live n.partner = false) (id : BitVec 16) :
    exec (.handover n id mask) s = .next (s.answered n id 0x23 .partnerNotLive []) := by
  refine next_whenUp ht ?_
  rw [if_neg hm, if_neg (by simp [hl]), if_pos (by simp [hp])]
  exact reply_up ht.2 _ _ _ _

theorem giveInstr_taken (ht : s.Takes n) {mask : SlotMask} {hand : Bool} (hm : mask ≠ 0) (hl : s.live n = true)
    (hp : hand = false ∨ s.live n.partner = true) (id : BitVec 16) : exec (giveInstr n id mask hand) s =
      .next (give n id (giveCode hand) (giveTarget n hand) (givePath hand) mask s) := by
  have hl' : ¬(!s.live n) = true := by simp [hl]
  cases hand with
  | false => exact next_whenUp ht (by rw [if_neg hm, if_neg hl']; rfl)
  | true =>
    have hp' : ¬(!s.live n.partner) = true := by simpa using hp
    exact next_whenUp ht (by rw [if_neg hm, if_neg hl', if_neg hp']; rfl)

end

/-- Settles O45: each slot of the mask is judged on its own, and a slot's commit or drain touches no other. -/
theorem releaseAndHandoverGiveSlots : Obligations.ReleaseAndHandoverGiveSlots := by
  rintro s n id mask hand ht c code o path rfl rfl rfl rfl
  refine ⟨?_, fun hm hl => giveInstr_notLive ht hm hl id hand, ?_, fun hm hl hp result hresult => ?_⟩
  · rintro rfl
    exact giveInstr_emptyMask ht id hand
  · rintro hm hl rfl hp
    exact giveInstr_partnerNotLive ht hm hl hp id
  · obtain rfl : result = s.givenOf n := funext hresult
    have hg : hand = true → s.gone n.partner = false := fun hh =>
      gone_of_live (hp.resolve_left (by simp [hh]))
    obtain ⟨u, hgave, heq⟩ := give_gave ht.2 hg id (giveCode hand) mask
    refine ⟨_, (giveInstr_taken ht hm hl hp id).trans (congrArg _ heq), fun i given hgiven => ?_, ?_,
      fun hf => ⟨hgave.store hf, ?_⟩, (congrArg State.engines hgave.frame :), (congrArg State.bays hgave.frame :),
      (congrArg State.leases hgave.frame :)⟩
    · rw [← judgeGive_done_iff] at hgiven
      refine ⟨fun hno => hgave.slot_stands fun h => hno (hgiven.2 h), fun hyes h0 hf => ?_, fun hyes h0 hf => ?_,
        fun hyes h0 => ?_⟩
      all_goals
        obtain ⟨hbit, hdone⟩ := hgiven.1 hyes
        refine (hgave.slot_mem hbit).trans ?_
      · rw [State.slotGiven, if_pos hdone, if_pos h0, if_pos ((storeFaulted_iff s).2 hf)]
        cases hand <;> rfl
      · obtain ⟨ho, -, -⟩ := (judgeGive_done_iff n i s).1 hdone
        rw [State.slotGiven, if_pos hdone, if_pos h0, if_neg (mt (storeFaulted_iff s).1 hf),
          SlotRec.begin, ho]
        rfl
      · rw [State.slotGiven, if_pos hdone, if_neg h0]
        rfl
    · rw [← hgave.port]
      exact congrArg Port.unsent (Pair.get_put_same u.ports n _)
    · rintro told rfl m hon hmask hlen
      have hbody : ∀ g, (if hand = true then NoticeBody.slotHanded (some n.partner) g
        else .slotReleased (some n) g) = giveBody n hand g := fun _ => rfl
      simp only [hbody] at hlen ⊢
      obtain ⟨hqueue, -, -⟩ := hgave.told hf m hon hmask hlen
      exact hqueue

end Sys2Proof.Machine
end

section
/-! Members that leave a batch (R85, R86, R88): the slots that return, and the end of a gathering batch. -/

namespace Sys2Proof.Machine

/-! ### A batch's member records -/

/-- The GATHERED members take a status. -/
def restatus (st : MemberStatus) (ms : List Member) : List Member :=
  ms.map (fun m => if m.status = .gathered then { m with status := st } else m)

def Batch.gatheredMembers (b : Batch) : List Member := b.members.filter (fun m => decide (m.status = .gathered))

theorem mem_gatheredMembers {b : Batch} {m : Member} :
    m ∈ b.gatheredMembers ↔ m ∈ b.members ∧ m.status = .gathered := by
  simp [Batch.gatheredMembers]

theorem gatheredMembers_nodup {b : Batch} (h : (b.members.map Member.slot).Nodup) :
    (b.gatheredMembers.map Member.slot).Nodup :=
  (List.filter_sublist.map Member.slot).nodup h

/-- R79: a slot has one member record, so a GATHERED member's slot tells it from the others. -/
theorem slot_mem_gathered_iff {b : Batch} (h : (b.members.map Member.slot).Nodup) {m : Member}
    (hm : m ∈ b.members) : m.slot ∈ b.gatheredMembers.map Member.slot ↔ m.status = .gathered := by
  refine ⟨fun hslot => ?_, fun hst => List.mem_map_of_mem (mem_gatheredMembers.2 ⟨hm, hst⟩)⟩
  obtain ⟨k, hk, heq⟩ := List.mem_map.1 hslot
  obtain ⟨hkm, hst⟩ := mem_gatheredMembers.1 hk
  rwa [← List.inj_on_of_nodup_map h hkm hm heq]

theorem countStatus_cons (st : MemberStatus) (m : Member) (ms : List Member) :
    countStatus st (m :: ms) = (if m.status = st then 1 else 0) + countStatus st ms := by
  unfold countStatus
  by_cases h : m.status = st
  · simp [h, Nat.add_comm]
  · simp [h]

theorem countStatus_restatus_other {st x : MemberStatus} (hx : x ≠ .gathered) (hst : x ≠ st) (ms : List Member) :
    countStatus x (restatus st ms) = countStatus x ms := by
  induction ms with
  | nil => rfl
  | cons m ms ih =>
    unfold restatus at ih ⊢
    rw [List.map_cons, countStatus_cons, countStatus_cons, ih]
    by_cases h : m.status = .gathered
    · simp [h, hst.symm, hx.symm]
    · simp [h]

theorem countStatus_restatus_same {st : MemberStatus} (hst : st ≠ .gathered) (ms : List Member) :
    countStatus st (restatus st ms) = countStatus st ms + countStatus .gathered ms := by
  induction ms with
  | nil => rfl
  | cons m ms ih =>
    unfold restatus at ih ⊢
    rw [List.map_cons, countStatus_cons, countStatus_cons, countStatus_cons, ih]
    by_cases h : m.status = .gathered
    · simp only [h, if_true, hst.symm, if_false]
      omega
    · simp only [h, if_false]
      omega

/-! ### Members that leave -/

/-- R21: the record of a slot that returns. -/
def SlotRec.returned (r : SlotRec) (n : Node) (prior : PriorPhase) : SlotRec :=
  if r.phase = .claimed ∧ r.batch = some n then r.enter prior.phase none none none none else r

theorem SlotRec.returned_autoPending (r : SlotRec) (n : Node) (p : PriorPhase) :
    (r.returned n p).autoPending = r.autoPending := by
  unfold SlotRec.returned
  split <;> rfl

theorem returnSlot_slot (s : State) (n : Node) (i : Slot) (p : PriorPhase) (j : Slot) :
    (s.returnSlot n i p).slot j = if j = i then (s.slot i).returned n p else s.slot j := by
  unfold State.returnSlot SlotRec.returned
  dsimp only
  split
  · exact State.setSlot_slot s i _ j
  · split
    · rename_i h
      rw [h]
    · rfl

theorem returnSlot_frame (s : State) (n : Node) (i : Slot) (p : PriorPhase) :
    { s.returnSlot n i p with slots := s.slots } = s := by
  unfold State.returnSlot
  dsimp only
  split <;> rfl

/-- A member leaves the batch with a status, and its slot returns. -/
def State.leaveMember (s : State) (n : Node) (st : MemberStatus) (m : Member) : State :=
  (s.returnSlot n m.slot m.prior).setMember n m.slot (fun k => { k with status := st })

/-- The member's record and its slot do not meet: their order does not matter. -/
theorem setMember_returnSlot (s : State) (n : Node) (st : MemberStatus) (m : Member) :
    (s.setMember n m.slot (fun k => { k with status := st })).returnSlot n m.slot m.prior =
      s.leaveMember n st m := by
  unfold State.leaveMember State.returnSlot
  dsimp only
  rw [show (s.setMember n m.slot fun k => { k with status := st }).slot m.slot = s.slot m.slot from rfl]
  split <;> rfl

/-- What the members `ms` leaving node `n`'s batch with a status change. -/
structure MembersLeft (s : State) (n : Node) (st : MemberStatus) (ms : List Member) (t : State) : Prop where
  frame : { t with slots := s.slots, batches := s.batches } = s
  partner : t.batch n.partner = s.batch n.partner
  batch : t.batch n = { s.batch n with members := (s.batch n).members.map (fun k =>
    if k.slot ∈ ms.map Member.slot then { k with status := st } else k) }
  returned : ∀ m ∈ ms, t.slot m.slot = (s.slot m.slot).returned n m.prior
  stands : ∀ j, j ∉ ms.map Member.slot → t.slot j = s.slot j

theorem MembersLeft.one (s : State) (n : Node) (st : MemberStatus) (m : Member) :
    MembersLeft s n st [m] (s.leaveMember n st m) := by
  have hframe := returnSlot_frame s n m.slot m.prior
  have hbatch : ∀ k, (s.returnSlot n m.slot m.prior).batch k = s.batch k := fun k =>
    (congrArg (fun u => State.batch u k) hframe :)
  refine ⟨(congrArg (fun u : State => { u with batches := s.batches }) hframe :), ?_, ?_, fun k hk => ?_,
    fun j hj => ?_⟩
  · unfold State.leaveMember State.setMember
    rw [State.setBatch_batch, if_neg (by cases n <;> decide), hbatch]
  · unfold State.leaveMember State.setMember
    rw [State.setBatch_batch_same, hbatch]
    simp [updateMember]
  · obtain rfl := List.mem_singleton.1 hk
    exact (returnSlot_slot s n k.slot k.prior k.slot).trans (if_pos rfl)
  · exact (returnSlot_slot s n m.slot m.prior j).trans (if_neg (by simpa using hj))

/-- Members that leave one after another, each of its own slot. -/
theorem MembersLeft.fold {n : Node} {st : MemberStatus} (ms : List Member) (s : State)
    (hnodup : (ms.map Member.slot).Nodup) :
    MembersLeft s n st ms (ms.foldl (fun s m => s.leaveMember n st m) s) := by
  induction ms generalizing s with
  | nil => exact ⟨rfl, rfl, by simp, fun m hm => absurd hm List.not_mem_nil, fun j _ => rfl⟩
  | cons m ms ih =>
    rw [List.map_cons, List.nodup_cons] at hnodup
    have one := MembersLeft.one s n st m
    have rest := ih (s.leaveMember n st m) hnodup.2
    have hother : ∀ k ∈ ms, k.slot ≠ m.slot := fun k hk heq =>
      hnodup.1 (heq ▸ List.mem_map_of_mem hk)
    refine ⟨?_, rest.partner.trans one.partner, ?_, fun k hk => ?_, fun j hj => ?_⟩
    · exact (congrArg (fun u : State => { u with slots := s.slots, batches := s.batches }) rest.frame :).trans
        one.frame
    · rw [List.foldl_cons, rest.batch, one.batch]
      dsimp only
      rw [List.map_map]
      refine congrArg (fun ks => ({ s.batch n with members := ks } : Batch)) (List.map_congr_left fun k _ => ?_)
      by_cases hk : k.slot = m.slot
      · simp [hk]
      · simp [hk]
    · rcases List.mem_cons.1 hk with rfl | hk
      · exact (rest.stands _ hnodup.1).trans (one.returned k (List.mem_singleton.2 rfl))
      · rw [List.foldl_cons, rest.returned k hk, one.stands _ (by simpa using hother k hk)]
    · rw [List.map_cons, List.mem_cons, not_or] at hj
      exact (rest.stands j hj.2).trans (one.stands j (by simpa using hj.1))

section
variable {s t : State} {n : Node} {st : MemberStatus} {ms : List Member}

theorem MembersLeft.autoPending (h : MembersLeft s n st ms t) (j : Slot) :
    (t.slot j).autoPending = (s.slot j).autoPending := by
  by_cases hj : j ∈ ms.map Member.slot
  · obtain ⟨m, hm, rfl⟩ := List.mem_map.1 hj
    rw [h.returned m hm, SlotRec.returned_autoPending]
  · rw [h.stands j hj]

/-- Where every GATHERED member leaves. -/
theorem MembersLeft.members (h : MembersLeft s n st (s.batch n).gatheredMembers t)
    (hnodup : ((s.batch n).members.map Member.slot).Nodup) :
    t.batch n = { s.batch n with members := restatus st (s.batch n).members } := by
  rw [h.batch]
  refine congrArg (fun ks => ({ s.batch n with members := ks } : Batch)) (List.map_congr_left fun k hk => ?_)
  simp only [slot_mem_gathered_iff hnodup hk]

/-- A CLAIMED slot of the batch returns to its prior phase. -/
theorem MembersLeft.returned_claimed (h : MembersLeft s n st (s.batch n).gatheredMembers t) {m : Member}
    (hm : m ∈ (s.batch n).members) (hst : m.status = .gathered) (hp : (s.slot m.slot).phase = .claimed)
    (hb : (s.slot m.slot).batch = some n) :
    t.slot m.slot = (s.slot m.slot).enter m.prior.phase none none none none := by
  rw [h.returned m (mem_gatheredMembers.2 ⟨hm, hst⟩), SlotRec.returned, if_pos ⟨hp, hb⟩]

/-- A slot of no GATHERED member stands. -/
theorem MembersLeft.stands_other (h : MembersLeft s n st (s.batch n).gatheredMembers t) {i : Slot}
    (hi : ∀ m ∈ (s.batch n).members, m.slot = i → m.status ≠ .gathered) : t.slot i = s.slot i := by
  refine h.stands i fun hmem => ?_
  obtain ⟨m, hm, heq⟩ := List.mem_map.1 hmem
  obtain ⟨hm, hst⟩ := mem_gatheredMembers.1 hm
  exact hi m hm heq hst

end

/-! ### The end of a gathering batch -/

theorem cancelMembers_left {s : State} {n : Node} (hnodup : ((s.batch n).members.map Member.slot).Nodup) :
    MembersLeft s n .droppedCancelled (s.batch n).gatheredMembers (s.cancelMembers n) := by
  have hfold := MembersLeft.fold (st := .droppedCancelled) (n := n) (s.batch n).gatheredMembers s
    (gatheredMembers_nodup hnodup)
  unfold Batch.gatheredMembers at hfold ⊢
  rw [List.foldl_filter] at hfold
  unfold State.cancelMembers
  simpa [State.leaveMember] using hfold

/-- R85, R86: what the end of a gathering batch with an outcome comes to. -/
def State.Cancelled (s : State) (n : Node) (o : BatchOutcome) (t : State) : Prop :=
  (t.batch n).state = .ended ∧ (t.batch n).outcome = some o ∧ (t.batch n).endTick = some s.now ∧
  (t.batch n).gatherDeadline = none ∧
  (t.batch n).members = (s.batch n).members.map (fun m =>
    if m.status = .gathered then { m with status := .droppedCancelled } else m) ∧
  (∀ m ∈ (s.batch n).members, m.status = .gathered → (s.slot m.slot).phase = .claimed →
    (s.slot m.slot).batch = some n → t.slot m.slot = { s.slot m.slot with
      phase := m.prior.phase, target := none, path := none, batch := none, drainDeadline := none }) ∧
  (∀ i, (∀ m ∈ (s.batch n).members, m.slot = i → m.status ≠ .gathered) → t.slot i = s.slot i) ∧
  ((s.notice n).on = true → (s.notice n).mask = 0 → (s.notice n).queue.length < 32 →
    (t.notice n).queue = (s.notice n).queue ++ [{ slot := none, tick := s.now
                                                  body := .batchEnded (s.batch n).number (s.batch n).origin o
                                                    (countStatus .taken (s.batch n).members)
                                                    (countStatus .takenFaulted (s.batch n).members)
                                                    (countStatus .skippedHeld (s.batch n).members)
                                                    (countStatus .droppedOwnerReturned (s.batch n).members)
                                                    (countStatus .droppedCancelled (s.batch n).members
                                                      + countStatus .gathered (s.batch n).members) }]) ∧
  t.engines = s.engines ∧ t.bays = s.bays ∧ t.store = s.store

/-- R96: the end of a batch with no slot marked for the node. -/
theorem endBatch_unmarked {s : State} {n : Node} (h : ∀ j, (s.slot j).autoPending ≠ some n) (o : BatchOutcome) :
    endBatch n o s = s.closeBatch n o := deferredWith_off h

theorem closeBatch_batch (s : State) (n : Node) (o : BatchOutcome) : (s.closeBatch n o).batch n =
    { s.batch n with state := .ended, endTick := some s.now, outcome := some o, gatherDeadline := none } :=
  State.setBatch_batch_same s n _

theorem cancelBatch_cancelled {s : State} {n : Node} (hnodup : ((s.batch n).members.map Member.slot).Nodup)
    (hmark : ∀ i, (s.slot i).autoPending = none) (o : BatchOutcome) :
    s.Cancelled n o (cancelBatch n o s) ∧
      { cancelBatch n o s with slots := s.slots, batches := s.batches, notices := s.notices } = s := by
  have left := cancelMembers_left hnodup
  have hend : cancelBatch n o s = (s.cancelMembers n).closeBatch n o :=
    endBatch_unmarked (fun j => by rw [left.autoPending, hmark]; exact nofun) o
  have hmembers := left.members hnodup
  have hnow : (s.cancelMembers n).now = s.now := (congrArg State.now left.frame :)
  have hnotice : (s.cancelMembers n).notice n = s.notice n :=
    (congrArg (fun u => State.notice u n) left.frame :)
  have hbatch := closeBatch_batch (s.cancelMembers n) n o
  rw [hend]
  refine ⟨⟨by rw [hbatch], by rw [hbatch], by rw [hbatch, hnow], by rw [hbatch], by rw [hbatch, hmembers]; rfl,
    fun m hm hst hp hb => left.returned_claimed hm hst hp hb, fun i hi => left.stands_other hi,
    fun hon hmask hlen => ?_, (congrArg State.engines left.frame :), (congrArg State.bays left.frame :),
    (congrArg State.store left.frame :)⟩, (congrArg (fun u : State => { u with notices := s.notices }) left.frame :)⟩
  unfold State.closeBatch
  dsimp only
  rw [raise_queue _ _ _ n (by exact hnotice ▸ hon) (by exact hnotice ▸ hmask) (by exact hnotice ▸ hlen), hmembers,
    countStatus_restatus_other (by decide) (by decide), countStatus_restatus_other (by decide) (by decide),
    countStatus_restatus_other (by decide) (by decide), countStatus_restatus_other (by decide) (by decide),
    countStatus_restatus_same (by decide)]
  rw [← hnotice, ← hnow]
  rfl

/-! ### The loss of the claimant's lease -/

/-- The node's lease is replaced and its partner told (R33, R36). -/
def State.leaseLost (s : State) (n : Node) (l : Lease) (b : NoticeBody) : State :=
  (s.setLease n l).raise n.partner none b

section
variable {s : State} {n : Node}

theorem leaseLost_notice (l : Lease) (b : NoticeBody) : (s.leaseLost n l b).notice n = s.notice n := by
  cases n <;> rfl

theorem leaseLost_lease (l : Lease) (b : NoticeBody) : (s.leaseLost n l b).lease n = l := by
  cases n <;> rfl

/-- The partner's notice does not concern the batch that ends. -/
theorem State.Cancelled.of_leaseLost {l : Lease} {b : NoticeBody} {o : BatchOutcome} {t : State}
    (h : (s.leaseLost n l b).Cancelled n o t) : s.Cancelled n o t := by
  unfold State.Cancelled at h
  rw [leaseLost_notice] at h
  exact h

/-- A sent reply does not concern it either. -/
theorem State.Cancelled.of_answered {id : BitVec 16} {c : Byte} {r : Result} {d : List Byte} {o : BatchOutcome}
    {t : State} (h : (s.answered n id c r d).Cancelled n o t) : s.Cancelled n o t := h

/-- The loss of the claimant's lease changes slots, batches and notices alone. -/
def ClaimantLostFrame (n : Node) (u : State) : Prop :=
  { claimantLost n u with slots := u.slots, batches := u.batches, notices := u.notices } = u

theorem claimantLost_frame_off {u : State} (h : (u.batch n).state ≠ .gathering) : ClaimantLostFrame n u := by
  unfold ClaimantLostFrame
  rw [claimantLost_off h]

theorem claimantLost_cancelled {u : State} (h : (u.batch n).state = .gathering)
    (hnodup : ((u.batch n).members.map Member.slot).Nodup) (hmark : ∀ i, (u.slot i).autoPending = none) :
    u.Cancelled n .claimantLost (claimantLost n u) ∧ ClaimantLostFrame n u := by
  unfold ClaimantLostFrame claimantLost
  rw [if_pos h]
  exact cancelBatch_cancelled hnodup hmark _

/-- R33, R36: with no sweep of the node and no live partner nothing follows the loss of the claimant. -/
theorem endSweepOf_claimantLost {l : Lease} {b : NoticeBody} (hs : s.sweep.runsFor n = false)
    (hframe : ClaimantLostFrame n (s.leaseLost n l b)) :
    endSweepOf n .leaseLost (claimantLost n (s.leaseLost n l b)) = claimantLost n (s.leaseLost n l b) :=
  endSweepOf_off _ ((congrArg (fun x : State => x.sweep.runsFor n) hframe :).trans hs)

theorem trigger_claimantLost {l : Lease} {b : NoticeBody} (hp : s.live n.partner = false)
    (hframe : ClaimantLostFrame n (s.leaseLost n l b)) :
    trigger n (claimantLost n (s.leaseLost n l b)) = claimantLost n (s.leaseLost n l b) :=
  trigger_off ((congrArg (fun x : State => x.live n.partner) hframe :).trans ((live_after s n l none b).trans hp))

/-- The state whose claimant is lost when an expiry or a LEAVE takes effect. -/
structure LosesLease (s : State) (n : Node) (id : BitVec 16) (c : Instr) (u : State) : Prop where
  notLive : u.live n = false
  batch : u.batch n = s.batch n
  slots : u.slots = s.slots
  batches : u.batches = s.batches
  cancelled : ∀ o t, u.Cancelled n o t → s.Cancelled n o t
  exec : ClaimantLostFrame n u → exec c s = .next (claimantLost n u)

theorem expiryDeadline_losesLease (hr : s.running = true) (hl : s.live n = true)
    (hs : s.sweep.runsFor n = false) (hp : s.live n.partner = false) (he : (s.lease n).expiry = some s.now)
    (id : BitVec 16) : LosesLease s n id (.expiryDeadline n)
      (s.leaseLost n ((s.lease n).stop .expired)
        (.partnerExpired .expired ((s.lease n).grant.map Grant.lastHeartbeat))) := by
  refine ⟨?_, rfl, rfl, rfl, fun o t => .of_leaseLost, fun hframe => ?_⟩
  · unfold State.live
    rw [leaseLost_lease]
    rfl
  · refine congrArg Host.Outcome.next ((whenRunning_on hr).trans ((whenTrue_on (by simp [hl, he])).trans ?_))
    exact (congrArg (endSweepOf n .leaseLost) (trigger_claimantLost hp hframe)).trans
      (endSweepOf_claimantLost hs hframe)

/-- R36: the state in which a LEAVE tells the claimant's loss. -/
def State.hasLeft (s : State) (n : Node) : State :=
  s.leaseLost n { (s.lease n).stop .absent with absentCause := some .left }
    (.partnerExpired .left ((s.lease n).grant.map Grant.lastHeartbeat))

theorem leaveLive_claimantLost (hs : s.sweep.runsFor n = false) (hp : s.live n.partner = false)
    (hframe : ClaimantLostFrame n (s.hasLeft n)) : leaveLive n s = claimantLost n (s.hasLeft n) := by
  have hsweep := endSweepOf_claimantLost hs hframe
  have htrigger := trigger_claimantLost hp hframe
  have hleave : leaveLive n s = if (endSweepOf n .leaseLost (claimantLost n (s.hasLeft n))).time.grace = true then
      endSweepOf n .leaseLost (claimantLost n (s.hasLeft n))
    else trigger n (endSweepOf n .leaseLost (claimantLost n (s.hasLeft n))) := rfl
  unfold State.hasLeft at hleave ⊢
  rw [hleave, hsweep, htrigger, ite_self]

theorem leave_losesLease (ht : s.Takes n) (hl : s.live n = true) (hs : s.sweep.runsFor n = false)
    (hp : s.live n.partner = false) (id : BitVec 16) : LosesLease s n id (.leave n id)
      ((s.answered n id 0x11 .done (u8 (leaseCode (s.lease n).state))).hasLeft n) := by
  refine ⟨?_, rfl, rfl, rfl, fun o t h => State.Cancelled.of_answered (.of_leaseLost h), fun hframe => ?_⟩
  · unfold State.live State.hasLeft
    rw [leaseLost_lease]
    rfl
  · refine next_whenUp ht ?_
    rw [reply_up ht.2]
    exact (if_pos (by exact hl)).trans (leaveLive_claimantLost hs hp hframe)

/-- Each event of the obligation that loses the lease. -/
theorem exists_losesLease (ht : s.Takes n) {id : BitVec 16} {c : Instr} (h : s.live n = true ∧
    s.sweep.runsFor n = false ∧ s.live n.partner = false ∧
    (c = .leave n id ∨ c = .expiryDeadline n ∧ (s.lease n).expiry = some s.now)) :
    ∃ u, LosesLease s n id c u := by
  obtain ⟨hl, hs, hp, rfl | ⟨rfl, he⟩⟩ := h
  · exact ⟨_, leave_losesLease ht hl hs hp id⟩
  · exact ⟨_, expiryDeadline_losesLease ht.1 hl hs hp he id⟩

end

/-- Settles O50: the members leave one after another (`MembersLeft.fold`), and nothing else follows. -/
theorem cancelAndClaimantLossReturnTheSlots : Obligations.CancelAndClaimantLossReturnTheSlots := by
  intro s n id ht gone hgone
  refine ⟨fun hb => ?_, fun hb c hc => ?_, fun hb => ?_, fun hb hnodup hmark cancelled hcancelled => ⟨?_, ?_⟩⟩
  · refine next_whenUp ht ?_
    unfold cancelTake
    dsimp only
    rw [hb]
    exact reply_up ht.2 _ _ _ _
  · obtain ⟨u, hu⟩ := exists_losesLease ht ((hgone c).1 hc)
    have hoff : (u.batch n).state ≠ .gathering := by rw [hu.batch, hb]; decide
    refine ⟨u, (hu.exec (claimantLost_frame_off hoff)).trans ?_, hu.notLive, hu.batches, hu.slots⟩
    rw [claimantLost_off hoff]
  · refine next_whenUp ht ?_
    unfold cancelTake
    dsimp only
    rcases hb with hb | hb <;> rw [hb] <;> exact reply_up ht.2 _ _ _ _
  · obtain ⟨hended, hframe⟩ := cancelBatch_cancelled hnodup hmark .cancelled
    have hport : (cancelBatch n .cancelled s).port n = s.port n := (congrArg (fun u => State.port u n) hframe :)
    refine ⟨_, next_whenUp ht ?_, (hcancelled _ _).2 (show s.Cancelled n .cancelled (State.answered _ n id 0x31 .done
      (u8 (s.batch n).number.toNat ++ u8 (countStatus .gathered (s.batch n).members))) from hended),
      (congrArg State.leases hframe :), ?_⟩
    · unfold cancelTake
      dsimp only
      rw [hb]
      exact reply_up (by rw [hport]; exact ht.2) _ _ _ _
    · rw [← hport]
      exact congrArg Port.unsent (Pair.get_put_same _ n _)
  · intro c hc
    obtain ⟨u, hu⟩ := exists_losesLease ht ((hgone c).1 hc)
    have hslot : ∀ i, u.slot i = s.slot i := fun i => congrArg (fun v : Vector SlotRec 8 => v[i]) hu.slots
    obtain ⟨hended, hframe⟩ := claimantLost_cancelled (u := u) (n := n) (by rw [hu.batch]; exact hb)
      (by rw [hu.batch]; exact hnodup) (fun i => by rw [hslot]; exact hmark i)
    exact ⟨_, hu.exec hframe, (hcancelled _ _).2 (hu.cancelled _ _ hended),
      (congrArg (fun x : State => x.live n) hframe :).trans hu.notLive⟩

end Sys2Proof.Machine
end

section
/-! The run of a batch (R88 to R90): what each GATHERED member comes to. -/

namespace Sys2Proof.Machine

/-! ### What the run of one member comes to -/

/-- The orphans of a member's slot once its old owner is fenced (R89 step 3). -/
def State.orphansOf (s : State) (n : Node) (m : Member) : Nat :=
  ((s.engine m.slot).fence (m.oldOwner.getD n.partner)).orphans

/-- The record of the member's slot after the run. -/
def State.ranSlot (s : State) (n : Node) (m : Member) : SlotRec :=
  if (s.bay m.slot).state = .held then (s.slot m.slot).returned n m.prior
  else if m.prior = .unowned ∨ s.orphansOf n m = 0 then (s.slot m.slot).begin (some n) .takeover
  else (s.slot m.slot).enter .draining none none (some n)
    (some (later s.now (drainLimit s.timing (s.orphansOf n m))))

/-- What the run makes of the member's record. -/
def State.ranAs (s : State) (n : Node) (m k : Member) : Member :=
  if (s.bay m.slot).state = .held then { k with status := .skippedHeld }
  else if m.prior = .unowned ∨ s.orphansOf n m = 0 then { k with status := .committing }
  else { k with status := .draining, orphans := some (s.orphansOf n m) }

/-- The engine of the member's slot after the run. -/
def State.ranEngine (s : State) (n : Node) (m : Member) : Engine :=
  if (s.bay m.slot).state ≠ .held ∧ m.prior = .owned then (s.engine m.slot).fence (m.oldOwner.getD n.partner)
  else s.engine m.slot

/-- The report of the member's slot after the run. -/
def State.ranReport (s : State) (n : Node) (m : Member) : Option Report :=
  if (s.bay m.slot).state ≠ .held ∧ m.prior = .owned then
    some (openReport (s.report m.slot) (m.oldOwner.getD n.partner) n (s.slot m.slot).generation s.now
      ((s.engine m.slot).fenceEntries (m.oldOwner.getD n.partner)))
  else s.report m.slot

theorem ranAs_slot (s : State) (n : Node) (m k : Member) : (s.ranAs n m k).slot = k.slot := by
  unfold State.ranAs
  split
  · rfl
  · split <;> rfl

/-- The state after the run of a member: its own slot, engine, report and record, and no other. -/
structure MemberRan (s : State) (n : Node) (m : Member) (t : State) : Prop where
  slot : ∀ j, t.slot j = if j = m.slot then s.ranSlot n m else s.slot j
  engine : ∀ j, t.engine j = if j = m.slot then s.ranEngine n m else s.engine j
  report : ∀ j, t.report j = if j = m.slot then s.ranReport n m else s.report j
  batch : t.batch n = { s.batch n with members := updateMember m.slot (s.ranAs n m) (s.batch n).members }
  lost : ∀ x i, (s.lease x).lost.getLsbD i = true → (t.lease x).lost.getLsbD i = true
  fenced : (s.bay m.slot).state ≠ .held → m.prior = .owned →
    (t.lease (m.oldOwner.getD n.partner)).lost.getLsbD m.slot.val = true
  bays : t.bays = s.bays
  time : t.time = s.time
  timing : t.timing = s.timing
  store : t.store.mode ≠ .faulted

/-- A member's slot and its record take new values; nothing else but the windows and the store changes. -/
structure MemberMoved (s : State) (n : Node) (i : Slot) (r : SlotRec) (f : Member → Member) (t : State) :
    Prop where
  frame : { t with slots := s.slots, windows := s.windows, store := s.store, batches := s.batches } = s
  slot : ∀ j, t.slot j = if j = i then r else s.slot j
  batch : t.batch n = { s.batch n with members := updateMember i f (s.batch n).members }
  store : t.store.mode ≠ .faulted

theorem setMember_batch (s : State) (n : Node) (i : Slot) (f : Member → Member) :
    (s.setMember n i f).batch n = { s.batch n with members := updateMember i f (s.batch n).members } :=
  State.setBatch_batch_same s n _

/-- R89 step 4: a member commits. -/
theorem MemberMoved.commit {s : State} {n : Node} {i : Slot} (fin : Slot → Bool → State → State)
    (f : Member → Member) (h : s.store.mode ≠ .faulted) :
    MemberMoved s n i ((s.slot i).begin (some n) .takeover) f
      (startCommitWith fin i (some n) .takeover (s.setMember n i f)) := by
  have hopen : startCommitWith fin i (some n) .takeover (s.setMember n i f) =
      ((s.setMember n i f).beginCommit i (some n) .takeover).queueUpdate i true :=
    if_neg (mt (storeFaulted_iff _).1 h)
  have hframe := queueUpdate_frame ((s.setMember n i f).beginCommit i (some n) .takeover) i true
  rw [hopen]
  refine ⟨(congrArg (fun u : State => { u with
      slots := s.slots, windows := s.windows, store := s.store, batches := s.batches }) hframe :), fun j => ?_,
    ((congrArg (fun u : State => u.batch n) hframe :).trans (setMember_batch s n i f) :), fun hf => ?_⟩
  · unfold State.slot
    rw [queueUpdate_slots]
    exact beginCommit_slot _ i _ _ j
  · have hkeeps := queueUpdate_storeFaulted (s := (s.setMember n i f).beginCommit i (some n) .takeover)
      (by exact h) i true
    exact h ((storeFaulted_iff s).1 (hkeeps.symm.trans ((storeFaulted_iff _).2 hf)))

/-- R89 step 4: a member drains. -/
theorem MemberMoved.drain {s : State} (n : Node) (i : Slot) (k : Nat) (h : s.store.mode ≠ .faulted) :
    MemberMoved s n i ((s.slot i).enter .draining none none (some n) (some (later s.now (drainLimit s.timing k))))
      (fun m => { m with status := .draining, orphans := some k }) (s.drain n i k) :=
  ⟨rfl, State.setSlot_slot s i _, setMember_batch _ n i _, h⟩

/-- A member moves without a fence. -/
theorem MemberMoved.ran {s t : State} {n : Node} {m : Member}
    (h : MemberMoved s n m.slot (s.ranSlot n m) (s.ranAs n m) t)
    (hno : ¬((s.bay m.slot).state ≠ .held ∧ m.prior = .owned)) : MemberRan s n m t := by
  have hleases : t.leases = s.leases := (congrArg State.leases h.frame :)
  refine ⟨h.slot, fun j => ?_, fun j => ?_, h.batch, fun x i hx => ?_, fun hb hp => absurd ⟨hb, hp⟩ hno,
    (congrArg State.bays h.frame :), (congrArg State.time h.frame :), (congrArg State.timing h.frame :), h.store⟩
  · have hengine : t.engine j = s.engine j := (congrArg (fun u => State.engine u j) h.frame :)
    rw [State.ranEngine, if_neg hno, hengine]
    split
    · rename_i hj
      rw [hj]
    · rfl
  · have hreport : t.report j = s.report j := (congrArg (fun u => State.report u j) h.frame :)
    rw [State.ranReport, if_neg hno, hreport]
    split
    · rename_i hj
      rw [hj]
    · rfl
  · unfold State.lease
    rw [hleases]
    exact hx

/-- A member moves after its old owner is fenced (R89). -/
theorem MemberMoved.ran_fenced {s t : State} {n : Node} {m : Member}
    (h : MemberMoved (s.fenceOwner m.slot (m.oldOwner.getD n.partner) n) n m.slot (s.ranSlot n m) (s.ranAs n m) t)
    (hb : (s.bay m.slot).state ≠ .held) (hp : m.prior = .owned) : MemberRan s n m t := by
  generalize hx : m.oldOwner.getD n.partner = x at h
  have hlease : ∀ y, t.lease y = if y = x then { s.lease x with lost := (s.lease x).lost ||| slotBit m.slot }
      else s.lease y := fun y =>
    (congrArg (fun u => State.lease u y) h.frame :).trans (State.setLease_lease (s.setReport m.slot _) x _ y)
  refine ⟨h.slot, fun j => ?_, fun j => ?_, h.batch, fun y i hy => ?_, fun _ _ => ?_,
    (congrArg State.bays h.frame :), (congrArg State.time h.frame :), (congrArg State.timing h.frame :), h.store⟩
  · rw [State.ranEngine, if_pos (And.intro hb hp), hx]
    exact (congrArg (fun u => State.engine u j) h.frame :).trans (State.setEngine_engine _ m.slot _ j)
  · rw [State.ranReport, if_pos (And.intro hb hp), hx]
    exact (congrArg (fun u => State.report u j) h.frame :).trans (State.setReport_report s m.slot _ j)
  · rw [hlease]
    split
    · rename_i hyx
      subst hyx
      rw [BitVec.getLsbD_or, hy, Bool.true_or]
    · exact hy
  · rw [hx, hlease, if_pos rfl, BitVec.getLsbD_or, slotBit_getLsbD]
    simp

/-- R88, R89: the run of one member, with the store not FAULTED. -/
theorem runMember_ran {s : State} {n : Node} (fin : Slot → Bool → State → State) (m : Member)
    (h : s.store.mode ≠ .faulted) : MemberRan s n m (runMember fin n m s) := by
  unfold runMember
  dsimp only
  by_cases hb : (s.bay m.slot).state = .held
  · rw [if_pos hb, setMember_returnSlot]
    have left := MembersLeft.one s n .skippedHeld m
    refine MemberMoved.ran ⟨?_, fun j => ?_, ?_, ?_⟩ (fun hno => hno.1 hb)
    · exact (congrArg (fun u : State => { u with windows := s.windows, store := s.store }) left.frame :)
    · rw [State.ranSlot, if_pos hb]
      exact returnSlot_slot s n m.slot m.prior j
    · rw [left.batch, updateMember]
      simp [State.ranAs, hb]
    · rw [(congrArg State.store left.frame : _ = s.store)]
      exact h
  · rw [if_neg hb]
    cases hp : m.prior with
    | unowned =>
      have hmoved := MemberMoved.commit (n := n) (i := m.slot) fin (s.ranAs n m) h
      have hrec : s.ranSlot n m = (s.slot m.slot).begin (some n) .takeover := by
        simp [State.ranSlot, hb, hp]
      have has : s.ranAs n m = fun k => { k with status := .committing } := by
        funext k
        simp [State.ranAs, hb, hp]
      rw [← hrec] at hmoved
      rw [← has]
      exact hmoved.ran (by simp [hp])
    | owned =>
      dsimp only
      have horphans : ((s.fenceOwner m.slot (m.oldOwner.getD n.partner) n).engine m.slot).orphans =
          s.orphansOf n m := congrArg Engine.orphans (State.setEngine_engine_same _ m.slot _)
      rw [horphans]
      by_cases h0 : s.orphansOf n m = 0
      · have hmoved := MemberMoved.commit (s := s.fenceOwner m.slot (m.oldOwner.getD n.partner) n) (n := n)
          (i := m.slot) fin (s.ranAs n m) (by exact h)
        have hrec : s.ranSlot n m = (s.slot m.slot).begin (some n) .takeover := by
          simp [State.ranSlot, hb, h0]
        have has : s.ranAs n m = fun k => { k with status := .committing } := by
          funext k
          simp [State.ranAs, hb, h0]
        rw [if_pos h0, ← has]
        refine MemberMoved.ran_fenced ?_ hb hp
        rw [hrec]
        exact hmoved
      · have hmoved := MemberMoved.drain (s := s.fenceOwner m.slot (m.oldOwner.getD n.partner) n) n m.slot
          (s.orphansOf n m) (by exact h)
        have hrec : s.ranSlot n m = (s.slot m.slot).enter .draining none none (some n)
            (some (later s.now (drainLimit s.timing (s.orphansOf n m)))) := by
          simp [State.ranSlot, hb, hp, h0]
        have has : s.ranAs n m = fun k => { k with status := .draining, orphans := some (s.orphansOf n m) } := by
          funext k
          simp [State.ranAs, hb, hp, h0]
        rw [if_neg h0]
        refine MemberMoved.ran_fenced ?_ hb hp
        rw [hrec, has]
        exact hmoved

/-! ### The members one after another -/

/-- What the run of the members `ms` comes to for each of them. -/
structure MembersRan (s : State) (n : Node) (ms : List Member) (t : State) : Prop where
  slot : ∀ m ∈ ms, t.slot m.slot = s.ranSlot n m
  engine : ∀ m ∈ ms, t.engine m.slot = s.ranEngine n m
  report : ∀ m ∈ ms, t.report m.slot = s.ranReport n m
  fenced : ∀ m ∈ ms, (s.bay m.slot).state ≠ .held → m.prior = .owned →
    (t.lease (m.oldOwner.getD n.partner)).lost.getLsbD m.slot.val = true
  member : ∀ m ∈ ms, m ∈ (s.batch n).members → s.ranAs n m m ∈ (t.batch n).members
  stands : ∀ j, j ∉ ms.map Member.slot → t.slot j = s.slot j ∧ t.engine j = s.engine j ∧ t.report j = s.report j
  others : ∀ k ∈ (s.batch n).members, k.slot ∉ ms.map Member.slot → k ∈ (t.batch n).members
  lost : ∀ x i, (s.lease x).lost.getLsbD i = true → (t.lease x).lost.getLsbD i = true
  batch : { t.batch n with members := [] } = { s.batch n with members := [] }
  bays : t.bays = s.bays

section
variable {s u : State} {n : Node} {m k : Member}

/-- The run of a member leaves what the run of another comes to as it is. -/
theorem MemberRan.other (h : MemberRan s n m u) (hk : k.slot ≠ m.slot) :
    u.ranSlot n k = s.ranSlot n k ∧ u.ranEngine n k = s.ranEngine n k ∧ u.ranReport n k = s.ranReport n k ∧
      u.ranAs n k = s.ranAs n k ∧ u.bay k.slot = s.bay k.slot := by
  have hslot : u.slot k.slot = s.slot k.slot := (h.slot _).trans (if_neg hk)
  have hengine : u.engine k.slot = s.engine k.slot := (h.engine _).trans (if_neg hk)
  have hreport : u.report k.slot = s.report k.slot := (h.report _).trans (if_neg hk)
  have hbay : u.bay k.slot = s.bay k.slot := congrArg (fun v : Vector Bay 8 => v[k.slot]) h.bays
  have hnow : u.now = s.now := congrArg Timebase.tick h.time
  have horphans : u.orphansOf n k = s.orphansOf n k := by rw [State.orphansOf, State.orphansOf, hengine]
  refine ⟨?_, ?_, ?_, funext fun x => ?_, hbay⟩
  · rw [State.ranSlot, State.ranSlot, hbay, hslot, horphans, hnow, h.timing]
  · rw [State.ranEngine, State.ranEngine, hbay, hengine]
  · rw [State.ranReport, State.ranReport, hbay, hreport, hslot, hengine, hnow]
  · rw [State.ranAs, State.ranAs, hbay, horphans]

end

/-- R88: the members run in order, each on its own slot. -/
theorem runMembers_ran {n : Node} (fin : Slot → Bool → State → State) (ms : List Member) (s : State)
    (hnodup : (ms.map Member.slot).Nodup) (h : s.store.mode ≠ .faulted) :
    MembersRan s n ms (ms.foldl (fun s m => runMember fin n m s) s) := by
  induction ms generalizing s with
  | nil =>
    exact ⟨nofun, nofun, nofun, nofun, nofun, fun _ _ => ⟨rfl, rfl, rfl⟩, fun _ hk _ => hk, fun _ _ hx => hx,
      rfl, rfl⟩
  | cons m ms ih =>
    rw [List.map_cons, List.nodup_cons] at hnodup
    rw [List.foldl_cons]
    have one := runMember_ran (n := n) fin m h
    have rest := ih (runMember fin n m s) hnodup.2 one.store
    generalize ms.foldl (fun s m => runMember fin n m s) (runMember fin n m s) = t at rest
    generalize runMember fin n m s = u at one rest
    have hother : ∀ k ∈ ms, k.slot ≠ m.slot := fun k hk heq =>
      hnodup.1 (heq ▸ List.mem_map_of_mem hk)
    obtain ⟨hslot, hengine, hreport⟩ := rest.stands m.slot hnodup.1
    have hmembers : (u.batch n).members = updateMember m.slot (s.ranAs n m) (s.batch n).members := by
      rw [one.batch]
    have hkept : ∀ k ∈ (s.batch n).members, k.slot ≠ m.slot → k ∈ (u.batch n).members := fun k hk hne => by
      rw [hmembers]
      exact mem_updateMember.2 ⟨k, hk, (if_neg hne).symm⟩
    refine ⟨?_, ?_, ?_, ?_, ?_, fun j hj => ?_, fun k hk hj => ?_, fun x i hx => rest.lost x i (one.lost x i hx), ?_,
      rest.bays.trans one.bays⟩
    · rintro k (_ | ⟨_, hk⟩)
      · rw [hslot, one.slot, if_pos rfl]
      · rw [rest.slot k hk, (one.other (hother k hk)).1]
    · rintro k (_ | ⟨_, hk⟩)
      · rw [hengine, one.engine, if_pos rfl]
      · rw [rest.engine k hk, (one.other (hother k hk)).2.1]
    · rintro k (_ | ⟨_, hk⟩)
      · rw [hreport, one.report, if_pos rfl]
      · rw [rest.report k hk, (one.other (hother k hk)).2.2.1]
    · rintro k (_ | ⟨_, hk⟩) hb hp
      · exact rest.lost _ _ (one.fenced hb hp)
      · obtain ⟨-, -, -, -, hbay⟩ := one.other (hother k hk)
        exact rest.fenced k hk (by rw [hbay]; exact hb) hp
    · rintro k (_ | ⟨_, hk⟩) hmem
      · refine rest.others _ ?_ (by rw [ranAs_slot]; exact hnodup.1)
        rw [hmembers]
        exact mem_updateMember.2 ⟨m, hmem, (if_pos rfl).symm⟩
      · obtain ⟨-, -, -, has, -⟩ := one.other (hother k hk)
        rw [← has]
        exact rest.member k hk (hkept k hmem (hother k hk))
    · rw [List.map_cons, List.mem_cons, not_or] at hj
      obtain ⟨hslot', hengine', hreport'⟩ := rest.stands j hj.2
      rw [hslot', hengine', hreport', one.slot, one.engine, one.report, if_neg hj.1, if_neg hj.1, if_neg hj.1]
      exact ⟨rfl, rfl, rfl⟩
    · rw [List.map_cons, List.mem_cons, not_or] at hj
      exact rest.others k (hkept k hk hj.1) hj.2
    · rw [rest.batch, one.batch]

/-! ### The run -/

/-- R88: the batch runs from now. -/
def State.startRun (s : State) (n : Node) : State :=
  s.setBatch n { s.batch n with state := .running, gatherDeadline := none, startTick := some s.now }

theorem startRun_batch (s : State) (n : Node) : (s.startRun n).batch n =
    { s.batch n with state := .running, gatherDeadline := none, startTick := some s.now } :=
  State.setBatch_batch_same s n _

theorem runMembers_eq (fin : Slot → Bool → State → State) (n : Node) (s : State) : runMembers fin n s =
    (s.batch n).gatheredMembers.foldl (fun s m => runMember fin n m s) (s.startRun n) := rfl

/-- R88: where some member's bay is not HELD the run does not end the batch. -/
theorem runBatch_goes_on {s : State} {n : Node} (hnodup : ((s.batch n).members.map Member.slot).Nodup)
    (h : s.store.mode ≠ .faulted)
    (hopen : ∃ m ∈ (s.batch n).members, m.status = .gathered ∧ (s.bay m.slot).state ≠ .held) :
    MembersRan (s.startRun n) n (s.batch n).gatheredMembers (runBatch n s) := by
  have ran := runMembers_ran (n := n) (finishWith (runLevel 3)) (s.batch n).gatheredMembers (s.startRun n)
    (gatheredMembers_nodup hnodup) h
  rw [← runMembers_eq] at ran
  obtain ⟨m, hm, hst, hb⟩ := hopen
  have hmem : m ∈ ((s.startRun n).batch n).members := by
    rw [startRun_batch]
    exact hm
  have hrecord := ran.member m (mem_gatheredMembers.2 ⟨hm, hst⟩) hmem
  have hnotFinal : ((s.startRun n).ranAs n m m).status.isFinal = false := by
    rw [State.ranAs, if_neg (by exact hb)]
    split <;> rfl
  have hgoes : runBatch n s = runMembers (finishWith (runLevel 3)) n s := by
    refine if_neg fun hdone => ?_
    obtain ⟨-, hall⟩ := Bool.and_eq_true_iff.1 hdone
    exact Bool.false_ne_true (hnotFinal.symm.trans (List.all_eq_true.1 hall _ hrecord))
  rw [hgoes]
  exact ran

/-- R88 item 1: members at HELD bays leave the batch. -/
theorem runMember_held {s : State} {n : Node} {m : Member} (h : (s.bay m.slot).state = .held)
    (fin : Slot → Bool → State → State) : runMember fin n m s = s.leaveMember n .skippedHeld m :=
  (if_pos h).trans (setMember_returnSlot s n .skippedHeld m)

theorem runMembers_held {n : Node} (fin : Slot → Bool → State → State) (ms : List Member) (s : State)
    (h : ∀ m ∈ ms, (s.bay m.slot).state = .held) :
    ms.foldl (fun s m => runMember fin n m s) s = ms.foldl (fun s m => s.leaveMember n .skippedHeld m) s := by
  induction ms generalizing s with
  | nil => rfl
  | cons m ms ih =>
    rw [List.foldl_cons, List.foldl_cons, runMember_held (h m List.mem_cons_self)]
    refine ih _ fun k hk => ?_
    have hbay : (s.leaveMember n .skippedHeld m).bay k.slot = s.bay k.slot :=
      (congrArg (fun u => State.bay u k.slot) (MembersLeft.one s n .skippedHeld m).frame :)
    rw [hbay]
    exact h k (List.mem_cons_of_mem m hk)

theorem countStatus_zero {st : MemberStatus} {ms : List Member} (h : ∀ m ∈ ms, m.status ≠ st) :
    countStatus st ms = 0 := by
  unfold countStatus
  rw [List.length_eq_zero_iff, List.filter_eq_nil_iff]
  exact fun m hm => by simpa using h m hm

/-- R88, R96: the members of a batch whose bays are all HELD are final, and none is taken. -/
theorem restatus_status {p : Member → Prop} {ms : List Member} (h : ∀ m ∈ ms, m.status = .gathered ∧ p m ∨
    m.status = .droppedOwnerReturned ∨ m.status = .droppedCancelled) :
    ∀ k ∈ restatus .skippedHeld ms, k.status = .skippedHeld ∨
      k.status = .droppedOwnerReturned ∨ k.status = .droppedCancelled := by
  intro k hk
  obtain ⟨m, hm, rfl⟩ := List.mem_map.1 hk
  rcases h m hm with ⟨h, -⟩ | h | h <;> simp [h]

theorem restatus_none_taken {p : Member → Prop} {ms : List Member} (h : ∀ m ∈ ms, m.status = .gathered ∧ p m ∨
    m.status = .droppedOwnerReturned ∨ m.status = .droppedCancelled) :
    countStatus .taken (restatus .skippedHeld ms) = 0 ∧ countStatus .takenFaulted (restatus .skippedHeld ms) = 0 := by
  constructor <;> refine countStatus_zero fun k hk => ?_ <;>
    rcases restatus_status h k hk with h | h | h <;> simp [h]

/-- The notices after BATCH_ENDED depend on the tick and the notices before it alone. -/
theorem raise_notices {s t : State} (hn : t.notices = s.notices) (ht : t.time = s.time) (n : Node) (o : Option Slot)
    (b : NoticeBody) : (t.raise n o b).notices = (s.raise n o b).notices := by
  unfold State.raise State.setNotice State.notice State.now
  dsimp only
  rw [hn, ht]

/-- R88, R96: where every GATHERED member's bay is HELD the batch ends with none taken. -/
theorem runBatch_all_held {s : State} {n : Node} (hnodup : ((s.batch n).members.map Member.slot).Nodup)
    (hheld : ∀ m ∈ (s.batch n).members, m.status = .gathered ∧ (s.bay m.slot).state = .held ∨
      m.status = .droppedOwnerReturned ∨ m.status = .droppedCancelled)
    (hmark : ∀ j, (s.slot j).autoPending ≠ some n) :
    ∃ u, MembersLeft (s.startRun n) n .skippedHeld (s.batch n).gatheredMembers u ∧
      u.batch n = { (s.startRun n).batch n with members := restatus .skippedHeld (s.batch n).members } ∧
      runBatch n s = u.closeBatch n .noneTaken := by
  have hbays : ∀ m ∈ (s.batch n).gatheredMembers, ((s.startRun n).bay m.slot).state = .held := by
    intro m hm
    obtain ⟨hm, hst⟩ := mem_gatheredMembers.1 hm
    rcases hheld m hm with h | h | h
    · exact h.2
    · simp [hst] at h
    · simp [hst] at h
  have hmembers : ((s.startRun n).batch n).members = (s.batch n).members := by rw [startRun_batch]
  have hgathered : ((s.startRun n).batch n).gatheredMembers = (s.batch n).gatheredMembers := by
    unfold Batch.gatheredMembers
    rw [hmembers]
  have left := MembersLeft.fold (st := .skippedHeld) (n := n) (s.batch n).gatheredMembers (s.startRun n)
    (gatheredMembers_nodup hnodup)
  rw [← runMembers_held (finishWith (runLevel 3)) _ _ hbays, ← runMembers_eq] at left
  have hbatch : (runMembers (finishWith (runLevel 3)) n s).batch n =
      { (s.startRun n).batch n with members := restatus .skippedHeld (s.batch n).members } := by
    rw [← hgathered] at left
    rw [left.members (by rw [hmembers]; exact hnodup), hmembers]
  have hstatus := restatus_status hheld
  have hdone : batchDone ((runMembers (finishWith (runLevel 3)) n s).batch n) = true := by
    rw [hbatch, startRun_batch, batchDone, Bool.and_eq_true_iff]
    refine ⟨rfl, List.all_eq_true.2 fun k hk => ?_⟩
    rcases hstatus k hk with h | h | h <;> rw [h] <;> rfl
  have houtcome : runOutcome ((runMembers (finishWith (runLevel 3)) n s).batch n).members = .noneTaken := by
    obtain ⟨htaken, hfaulted⟩ := restatus_none_taken hheld
    rw [hbatch]
    exact if_pos (by rw [htaken, hfaulted])
  refine ⟨_, left, hbatch, (if_pos hdone).trans ?_⟩
  rw [houtcome]
  exact deferredWith_off fun j => by
    rw [show (State.slot (State.closeBatch _ n .noneTaken) j).autoPending = _ from left.autoPending j]
    exact hmark j

theorem exec_gatherDeadline {s : State} {n : Node} (hr : s.running = true) (hb : (s.batch n).state = .gathering)
    (hd : (s.batch n).gatherDeadline = some s.now) : exec (.gatherDeadline n) s = .next (runBatch n s) :=
  congrArg Host.Outcome.next ((whenRunning_on hr).trans (whenTrue_on (by simp [hb, hd])))

/-- Settles O51: each member runs on its own slot (`runMembers_ran`), and where all are skipped the batch ends. -/
theorem gatherDeadlineRunsTheBatch : Obligations.GatherDeadlineRunsTheBatch := by
  intro s n hr hb hd hnodup
  refine ⟨fun hopen hmember => ?_, fun hheld hmark ms hms => ?_⟩
  · have ran := runBatch_goes_on hnodup hopen hmember
    have hbatch := ran.batch
    rw [startRun_batch] at hbatch
    refine ⟨_, exec_gatherDeadline hr hb hd, (congrArg Batch.state hbatch :), (congrArg Batch.startTick hbatch :),
      (congrArg Batch.gatherDeadline hbatch :), ran.bays, fun m hm hst committing hcommitting => ?_⟩
    have hin := mem_gatheredMembers.2 ⟨hm, hst⟩
    have hslot : State.slot _ m.slot = s.ranSlot n m := ran.slot m hin
    have hengine : State.engine _ m.slot = s.ranEngine n m := ran.engine m hin
    have hreport : State.report _ m.slot = s.ranReport n m := ran.report m hin
    have hrecord : s.ranAs n m m ∈ _ := ran.member m hin (by rw [startRun_batch]; exact hm)
    refine ⟨fun hheld => ⟨?_, ?_, ?_, fun hp hbatch => ?_⟩, fun hbay hprior => ⟨?_, ?_, ?_, ?_⟩,
      fun x hbay hprior hold => ⟨?_, ?_, ?_, ?_⟩⟩
    · rw [hengine, State.ranEngine, if_neg fun h => h.1 hheld]
    · rw [hreport, State.ranReport, if_neg fun h => h.1 hheld]
    · rwa [State.ranAs, if_pos hheld] at hrecord
    · rw [hslot, State.ranSlot, if_pos hheld, SlotRec.returned, if_pos ⟨hp, hbatch⟩]
      rfl
    · rw [hslot, State.ranSlot, if_neg hbay, if_pos (.inl hprior), hcommitting]
      rfl
    · rw [hengine, State.ranEngine, if_neg (by simp [hprior])]
    · rw [hreport, State.ranReport, if_neg (by simp [hprior])]
    · rwa [State.ranAs, if_neg hbay, if_pos (.inl hprior)] at hrecord
    · rw [hengine, State.ranEngine, if_pos (And.intro hbay hprior), hold, Option.getD_some]
    · rw [hreport, State.ranReport, if_pos (And.intro hbay hprior), hold, Option.getD_some, openReport]
      cases s.report m.slot <;> rfl
    · have hfenced := ran.fenced m hin hbay hprior
      rwa [hold, Option.getD_some] at hfenced
    · rintro k rfl
      have horphans : s.orphansOf n m = ((s.engine m.slot).fence x).orphans := by
        rw [State.orphansOf, hold, Option.getD_some]
      rw [← horphans]
      refine ⟨fun h0 => ⟨?_, ?_⟩, fun h0 => ⟨?_, ?_⟩⟩
      · rw [hslot, State.ranSlot, if_neg hbay, if_pos (.inr h0), hcommitting]
        rfl
      · rwa [State.ranAs, if_neg hbay, if_pos (.inr h0)] at hrecord
      · rw [hslot, State.ranSlot, if_neg hbay, if_neg (by simp [hprior, h0])]
        rfl
      · rwa [State.ranAs, if_neg hbay, if_neg (by simp [hprior, h0])] at hrecord
  · obtain ⟨u, left, hbatch, hrun⟩ := runBatch_all_held hnodup hheld hmark
    obtain rfl : ms = restatus .skippedHeld (s.batch n).members := hms
    have hnow : u.now = s.now := (congrArg State.now left.frame :)
    rw [startRun_batch] at hbatch
    have hgathered : ((s.startRun n).batch n).gatheredMembers = (s.batch n).gatheredMembers := by
      rw [startRun_batch, Batch.gatheredMembers, Batch.gatheredMembers]
    have hmembers : ((s.startRun n).batch n).members = (s.batch n).members := by rw [startRun_batch]
    obtain ⟨htaken, hfaulted⟩ := restatus_none_taken hheld
    rw [← hgathered] at left
    refine ⟨_, (exec_gatherDeadline hr hb hd).trans (congrArg _ hrun), ?_, fun m hm hst hp hbatch' => ?_,
      fun i hi => ?_, ?_, ?_, ?_⟩
    · rw [closeBatch_batch, hbatch, hnow]
    · exact left.returned_claimed (by rw [hmembers]; exact hm) hst hp hbatch'
    · exact left.stands_other (by rw [hmembers]; exact fun m hm heq hst => hi m hm hst heq)
    · have hnotices : u.notices = s.notices := (congrArg State.notices left.frame :)
      have htime : u.time = s.time := (congrArg State.time left.frame :)
      refine (raise_notices (s := s) (by exact hnotices) (by exact htime) n none _).trans ?_
      rw [hbatch]
      dsimp only
      rw [htaken, hfaulted]
    · exact (State.setBatch_batch u n _ n.partner).trans ((if_neg (by cases n <;> decide)).trans
        (left.partner.trans ((State.setBatch_batch s n _ n.partner).trans (if_neg (by cases n <;> decide)))))
    · exact (congrArg (fun v : State => { v with batches := s.batches, notices := s.notices }) left.frame :)

end Sys2Proof.Machine
end

section
/-! The end of a takeover commit (R9, R95, R96, R108) and the deferred automatic claims (R99). -/

namespace Sys2Proof.Machine

/-! ### Slots that join a batch (R81, R98) -/

theorem mem_joinMembers_new (i : Slot) (p : PriorPhase) (o : Owner) (ms : List Member) :
    ∃ m ∈ joinMembers i p o ms, m.slot = i ∧ m.status = .gathered ∧ m.oldOwner = o := by
  refine ⟨⟨i, p, o, .gathered, none, none, none⟩, ?_, rfl, rfl, rfl⟩
  unfold joinMembers
  dsimp only
  split
  · rename_i h
    obtain ⟨k, hk, hslot⟩ := List.any_eq_true.1 h
    exact List.mem_map.2 ⟨k, hk, if_pos (of_decide_eq_true hslot)⟩
  · exact List.mem_append_right _ (List.mem_singleton.2 rfl)

theorem mem_joinMembers_other {i : Slot} (p : PriorPhase) (o : Owner) {ms : List Member} {k : Member} (hk : k ∈ ms)
    (hi : k.slot ≠ i) : k ∈ joinMembers i p o ms := by
  unfold joinMembers
  dsimp only
  split
  · exact List.mem_map.2 ⟨k, hk, if_neg hi⟩
  · exact List.mem_append_left _ hk

/-- What the slots `is` joining node `n`'s batch change. -/
structure SlotsJoined (s : State) (n : Node) (is : List Slot) (t : State) : Prop where
  frame : { t with slots := s.slots, batches := s.batches } = s
  partner : t.batch n.partner = s.batch n.partner
  batch : { t.batch n with members := [] } = { s.batch n with members := [] }
  slot : ∀ j, t.slot j = if j ∈ is then (s.slot j).enter .claimed none none (some n) none else s.slot j
  member : ∀ j ∈ is, ∃ m ∈ (t.batch n).members, m.slot = j ∧ m.status = .gathered ∧ m.oldOwner = (s.slot j).owner
  others : ∀ k ∈ (s.batch n).members, k.slot ∉ is → k ∈ (t.batch n).members

theorem SlotsJoined.fold {n : Node} (is : List Slot) (s : State) :
    SlotsJoined s n is (is.foldl (fun s i => s.join n i) s) := by
  induction is generalizing s with
  | nil => exact ⟨rfl, rfl, rfl, fun _ => rfl, nofun, fun _ hk _ => hk⟩
  | cons i is ih =>
    rw [List.foldl_cons]
    have rest := ih (s.join n i)
    have hbatch : (s.join n i).batch n = { s.batch n with
        members := joinMembers i (priorOf (s.slot i)) (s.slot i).owner (s.batch n).members } :=
      State.setBatch_batch_same _ n _
    have hslot : ∀ j, (s.join n i).slot j =
        if j = i then (s.slot i).enter .claimed none none (some n) none else s.slot j := State.setSlot_slot s i _
    have howner : ∀ j, ((s.join n i).slot j).owner = (s.slot j).owner := by
      intro j
      rw [hslot]
      split
      · rename_i h
        rw [h]
        rfl
      · rfl
    refine ⟨?_, ?_, ?_, fun j => ?_, fun j hj => ?_, fun k hk hno => ?_⟩
    · exact (congrArg (fun u : State => { u with slots := s.slots, batches := s.batches }) rest.frame :)
    · exact rest.partner.trans ((State.setBatch_batch _ n _ n.partner).trans (if_neg (by cases n <;> decide)))
    · rw [rest.batch, hbatch]
    · rw [rest.slot, hslot]
      by_cases hj : j = i
      · subst hj
        simp [SlotRec.enter]
      · simp [hj]
    · by_cases hin : j ∈ is
      · rw [← howner]
        exact rest.member j hin
      · obtain rfl : j = i := (List.mem_cons.1 hj).resolve_right hin
        obtain ⟨m, hm, hi, hnew⟩ := mem_joinMembers_new j (priorOf (s.slot j)) (s.slot j).owner (s.batch n).members
        exact ⟨m, rest.others m (by rw [hbatch]; exact hm) (by rw [hi]; exact hin), hi, hnew⟩
    · rw [List.mem_cons, not_or] at hno
      exact rest.others k (by rw [hbatch]; exact mem_joinMembers_other _ _ hk hno.1) hno.2

/-- R99: the marks of a list of slots go. -/
theorem unmark_fold (is : List Slot) (s : State) :
    { is.foldl (fun s i => s.setAutoPending i none) s with slots := s.slots } = s ∧
      ∀ j, (is.foldl (fun s i => s.setAutoPending i none) s).slot j =
        if j ∈ is then { s.slot j with autoPending := none } else s.slot j := by
  induction is generalizing s with
  | nil => exact ⟨rfl, fun _ => rfl⟩
  | cons i is ih =>
    obtain ⟨hframe, hslot⟩ := ih (s.setAutoPending i none)
    rw [List.foldl_cons]
    refine ⟨(congrArg (fun u : State => { u with slots := s.slots }) hframe :), fun j => ?_⟩
    have hone : (s.setAutoPending i none).slot j =
        if j = i then { s.slot i with autoPending := none } else s.slot j := State.setSlot_slot s i _ j
    rw [hslot, hone]
    by_cases hj : j = i
    · subst hj
      simp
    · simp [hj]

/-! ### The deferred automatic claims (R99) -/

/-- R99: a slot marked for the node that joins its new batch. -/
def State.defers (s : State) (n : Node) (i : Slot) : Prop :=
  (s.slot i).autoPending = some n ∧ s.stillQualifies n i = true

/-- What the deferred automatic claims of a node change. -/
structure ClaimsDeferred (s : State) (n : Node) (t : State) : Prop where
  frame : { t with slots := s.slots, batches := s.batches } = s
  partner : t.batch n.partner = s.batch n.partner
  unchanged : (¬∃ i, s.defers n i) → t.batch n = s.batch n
  created : (∃ i, s.defers n i) → (t.batch n).state = .gathering ∧ (t.batch n).origin = some .auto ∧
    (t.batch n).number = (s.batch n).number + 1 ∧
    (t.batch n).gatherDeadline = some (later s.now (s.timing.gatherWindow * 10))
  joined : ∀ i, s.defers n i →
    t.slot i = ({ s.slot i with autoPending := none } : SlotRec).enter .claimed none none (some n) none ∧
    ∃ j ∈ (t.batch n).members, j.slot = i ∧ j.status = .gathered ∧ j.oldOwner = (s.slot i).owner
  unmarked : ∀ i, ¬s.defers n i → (s.slot i).autoPending = some n → t.slot i = { s.slot i with autoPending := none }
  stands : ∀ i, (s.slot i).autoPending ≠ some n → t.slot i = s.slot i

theorem deferredWith_deferred {s : State} (run : Node → State → State) (n : Node) (hw : s.timing.gatherWindow ≠ 0) :
    ClaimsDeferred s n (deferredWith run n s) := by
  unfold deferredWith
  dsimp only
  obtain ⟨hframe, hslot⟩ := unmark_fold (allSlots.filter fun i => decide ((s.slot i).autoPending = some n)) s
  generalize hu : (allSlots.filter fun i => decide ((s.slot i).autoPending = some n)).foldl
    (fun s i => s.setAutoPending i none) s = u at hframe hslot ⊢
  generalize hjoining : (allSlots.filter fun i => decide ((s.slot i).autoPending = some n)).filter
    (fun i => s.stillQualifies n i) = joining
  have hmem : ∀ i, i ∈ joining ↔ s.defers n i := by
    intro i
    rw [← hjoining, List.mem_filter, List.mem_filter, decide_eq_true_eq]
    exact and_congr_left fun _ => and_iff_right (mem_allSlots i)
  have hslotOf : ∀ i, u.slot i =
      if (s.slot i).autoPending = some n then { s.slot i with autoPending := none } else s.slot i := by
    intro i
    rw [hslot]
    simp only [List.mem_filter, mem_allSlots, true_and, decide_eq_true_eq]
  have hbatch : ∀ k, u.batch k = s.batch k := fun k => (congrArg (fun x => State.batch x k) hframe :)
  by_cases hnone : joining = []
  · have hno : ¬∃ i, s.defers n i := by
      rintro ⟨i, hi⟩
      rw [← hmem, hnone] at hi
      exact absurd hi List.not_mem_nil
    rw [if_pos hnone]
    exact ⟨(congrArg (fun x : State => { x with batches := s.batches }) hframe :), hbatch _, fun _ => hbatch n,
      fun h => absurd h hno, fun i hi => absurd ⟨i, hi⟩ hno, fun i _ hmark => (hslotOf i).trans (if_pos hmark),
      fun i hmark => (hslotOf i).trans (if_neg hmark)⟩
  · rw [if_neg hnone]
    have joined := SlotsJoined.fold (n := n) joining (u.createBatch n .auto)
    generalize joining.foldl (fun s i => s.join n i) (u.createBatch n .auto) = v at joined ⊢
    have hvtiming : v.timing = s.timing :=
      (congrArg State.timing joined.frame :).trans (congrArg State.timing hframe :)
    have hvnow : v.now = s.now := (congrArg State.now joined.frame :).trans (congrArg State.now hframe :)
    have hgather : gatherWith run n v = v.setBatch n
        { v.batch n with gatherDeadline := some (later s.now (s.timing.gatherWindow * 10)) } := by
      unfold gatherWith
      dsimp only
      rw [if_neg (by rw [State.setBatch_timing, hvtiming]; exact hw), hvnow, hvtiming]
    have hcreated : (u.createBatch n .auto).batch n = ⟨.gathering, (s.batch n).number + 1, some .auto, [], none,
        none, none, none⟩ := by
      unfold State.createBatch
      rw [State.setBatch_batch_same, hbatch]
    have hfields := joined.batch
    rw [hcreated] at hfields
    have hsome : ∃ i, s.defers n i := by
      obtain ⟨i, hi⟩ := List.exists_mem_of_ne_nil joining hnone
      exact ⟨i, (hmem i).1 hi⟩
    have hvslot : ∀ i, v.slot i = if i ∈ joining then (u.slot i).enter .claimed none none (some n) none
        else u.slot i := joined.slot
    rw [hgather]
    refine ⟨?_, ?_, fun h => absurd hsome h, fun _ => ?_, fun i hi => ⟨?_, ?_⟩, fun i hi hmark => ?_,
      fun i hmark => ?_⟩
    · exact (congrArg (fun x : State => { x with slots := s.slots, batches := s.batches }) joined.frame :).trans
        (congrArg (fun x : State => { x with batches := s.batches }) hframe :)
    · rw [State.setBatch_batch, if_neg (by cases n <;> decide), joined.partner]
      exact (State.setBatch_batch u n _ n.partner).trans ((if_neg (by cases n <;> decide)).trans (hbatch _))
    · rw [State.setBatch_batch_same]
      exact ⟨(congrArg Batch.state hfields :), (congrArg Batch.origin hfields :), (congrArg Batch.number hfields :), rfl⟩
    · refine (hvslot i).trans ?_
      rw [if_pos ((hmem i).2 hi), hslotOf, if_pos hi.1]
    · obtain ⟨m, hm, hslotm, hst, howner⟩ := joined.member i ((hmem i).2 hi)
      refine ⟨m, by rw [State.setBatch_batch_same]; exact hm, hslotm, hst, howner.trans ?_⟩
      refine (congrArg SlotRec.owner (hslotOf i)).trans ?_
      rw [if_pos hi.1]
    · refine (hvslot i).trans ?_
      rw [if_neg (mt (hmem i).1 hi), hslotOf, if_pos hmark]
    · refine (hvslot i).trans ?_
      rw [if_neg fun h => hmark ((hmem i).1 h).1, hslotOf, if_neg hmark]

/-! ### The member's results (R95) -/

theorem push_queue {q : NoticeQueue} (x : Notice) (hon : q.on = true) (hmask : q.mask = 0)
    (hlen : q.queue.length < 32) : (q.push x).queue = q.queue ++ [x] := by
  unfold NoticeQueue.push
  dsimp only
  rw [if_neg (by simp [hon, hmask]), if_pos hlen]

/-- Two notices one after another. -/
theorem push_push_queue {q : NoticeQueue} (x y : Notice) (hon : q.on = true) (hmask : q.mask = 0)
    (hlen : q.queue.length + 2 ≤ 32) : ((q.push x).push y).queue = q.queue ++ [x, y] := by
  obtain ⟨hon', hmask'⟩ := push_on_mask q x
  have hfirst := push_queue x hon hmask (by omega)
  have hroom : (q.push x).queue.length < 32 := by
    rw [hfirst, List.length_append]
    exact Nat.lt_of_succ_le hlen
  rw [push_queue y (hon'.trans hon) (hmask'.trans hmask) hroom, hfirst, List.append_assoc]
  rfl

/-- R95: the end of a takeover commit of slot `i` for the member `m` of node `n`'s batch. -/
structure MemberTaken (s : State) (i : Slot) (stored : Bool) (n : Node) (m : Member) (t : State) : Prop where
  frame : { t with slots := s.slots, batches := s.batches, reports := s.reports, notices := s.notices } = s
  slot : ∀ j, t.slot j = if j = i then (s.slot i).rest else s.slot j
  batch : t.batch n = { s.batch n with members := updateMember i (fun k => { k with
    status := if (s.bay i).state = .failed then .takenFaulted else .taken
    newGeneration := some (s.slot i).generation, stored := some stored }) (s.batch n).members }
  partner : t.batch n.partner = s.batch n.partner
  report : t.report i = if m.prior = .owned then (s.report i).map (fun r => { r with
      closing := some { generationAfter := (s.slot i).generation, stored := stored, commitTick := s.now } })
    else s.report i
  told : t.notice n = (s.notice n).push
    { slot := some i, tick := s.now, body := .slotTaken (s.slot i).generation stored }
  lost : m.prior = .owned → t.notice n.partner = (s.notice n.partner).push { slot := some i, tick := s.now
                                                                             body := .slotLost (some n) (s.slot i).generation
                                                                               (((s.report i).map (fun r => r.entries.length)).getD 0) }

theorem memberDone_taken {s : State} {i : Slot} {n : Node} {m : Member} (stored : Bool)
    (hpath : (s.slot i).path = some .takeover) (howner : (s.slot i).owner = some n)
    (hm : m ∈ (s.batch n).members) (hi : m.slot = i) (hnodup : ((s.batch n).members.map Member.slot).Nodup)
    (hprior : m.prior = .owned ∧ m.oldOwner = some n.partner ∨ m.prior = .unowned) :
    MemberTaken s i stored n m ((s.setSlot i (s.slot i).rest).commitResults i (s.slot i) stored) := by
  have hgen : ((s.setSlot i (s.slot i).rest).slot i).generation = (s.slot i).generation := by
    rw [State.setSlot_slot_same]
    rfl
  have hfind : ((s.setSlot i (s.slot i).rest).batch n).members.find? (fun k => decide (k.slot = i)) = some m :=
    memberDone_of_mem hm hi hnodup
  unfold State.commitResults
  rw [hpath, howner]
  dsimp only
  unfold State.memberDone
  dsimp only
  rw [hfind, hgen]
  dsimp only
  rcases hprior with ⟨hp, ho⟩ | hp
  · rw [hp, ho]
    dsimp only
    refine ⟨rfl, State.setSlot_slot s i _, setMember_batch _ n i _, ?_, ?_, ?_, fun _ => ?_⟩
    · cases n <;> rfl
    · rw [if_pos hp]
      exact State.setReport_report_same _ i _
    · cases n <;> rfl
    · cases n <;> rfl
  · have hno : m.prior ≠ .owned := by
      rw [hp]
      decide
    rw [hp]
    dsimp only
    refine ⟨rfl, State.setSlot_slot s i _, setMember_batch _ n i _, ?_, (if_neg hno).symm, ?_, fun h => absurd h hno⟩
    · cases n <;> rfl
    · cases n <;> rfl

/-- R96: the outcome of a batch that took a slot. -/
theorem runOutcome_taken {ms : List Member} {k : Member} (hk : k ∈ ms)
    (hst : k.status = .taken ∨ k.status = .takenFaulted) :
    runOutcome ms = if ∀ j ∈ ms, j.status ≠ .skippedHeld then .allTaken else .partialTaken := by
  have hpos : ∀ st, k.status = st → countStatus st ms ≠ 0 := fun st h =>
    (List.length_pos_of_mem (List.mem_filter.2 ⟨hk, decide_eq_true h⟩)).ne'
  have htaken : countStatus .taken ms + countStatus .takenFaulted ms ≠ 0 := by
    rcases hst with h | h
    · have := hpos _ h
      omega
    · have := hpos _ h
      omega
  have hskipped : countStatus .skippedHeld ms = 0 ↔ ∀ j ∈ ms, j.status ≠ .skippedHeld := by
    simp [countStatus, List.filter_eq_nil_iff]
  unfold runOutcome
  rw [if_neg htaken]
  simp only [hskipped]

/-- R95, R96: a member's record that is TAKEN or TAKEN_FAULTED counts as taken. -/
theorem runOutcome_memberTaken {i : Slot} {m : Member} {ms : List Member} (hm : m ∈ ms) (hi : m.slot = i)
    {p : Prop} [Decidable p] (g : Gen) (stored : Bool) {ks : List Member}
    (hks : ks = ms.map (fun j => if j.slot = i then { j with
      status := if p then .takenFaulted else .taken, newGeneration := some g, stored := some stored } else j)) :
    runOutcome ks = if ∀ j ∈ ks, j.status ≠ .skippedHeld then .allTaken else .partialTaken := by
  refine runOutcome_taken (k := { m with
    status := if p then .takenFaulted else .taken, newGeneration := some g, stored := some stored }) ?_ ?_
  · rw [hks]
    exact List.mem_map.2 ⟨m, hm, if_pos hi⟩
  · dsimp only
    split
    · exact .inr rfl
    · exact .inl rfl

/-! ### The end of the commit -/

/-- R95 step 5, R96, R99: what the last member's end adds to the state with the member's results. -/
structure BatchChecked (s : State) (n : Node) (last : Prop) (o : BatchOutcome) (t : State) : Prop where
  goesOn : ¬last → t = s
  ended : last → ClaimsDeferred (s.closeBatch n o) n t

theorem checkBatchWith_checked {s : State} (run : Node → State → State) (n : Node)
    (hw : s.timing.gatherWindow ≠ 0) : BatchChecked s n (batchDone (s.batch n) = true)
      (runOutcome (s.batch n).members) (checkBatchWith run n s) := by
  unfold checkBatchWith
  refine ⟨fun h => if_neg h, fun h => ?_⟩
  rw [if_pos h]
  exact deferredWith_deferred run n hw

theorem BatchChecked.frame {s t : State} {n : Node} {last : Prop} {o : BatchOutcome}
    (h : BatchChecked s n last o t) :
    { t with slots := s.slots, batches := s.batches, notices := s.notices } = s := by
  by_cases hl : last
  · exact (congrArg (fun u : State => { u with slots := s.slots, batches := s.batches, notices := s.notices })
      (h.ended hl).frame :)
  · rw [h.goesOn hl]

theorem closeBatch_notice (s : State) (n : Node) (o : BatchOutcome) : (s.closeBatch n o).notice n =
    (s.notice n).push { slot := none, tick := s.now
                        body := .batchEnded (s.batch n).number (s.batch n).origin o
                          (countStatus .taken (s.batch n).members) (countStatus .takenFaulted (s.batch n).members)
                          (countStatus .skippedHeld (s.batch n).members)
                          (countStatus .droppedOwnerReturned (s.batch n).members)
                          (countStatus .droppedCancelled (s.batch n).members) } := by
  cases n <;> rfl

/-- The end of a node's batch does not concern its partner. -/
theorem closeBatch_partner (s : State) (n : Node) (o : BatchOutcome) :
    (s.closeBatch n o).batch n.partner = s.batch n.partner ∧
      (s.closeBatch n o).notice n.partner = s.notice n.partner := by
  cases n <;> exact ⟨rfl, rfl⟩

section
variable {s t : State} {n : Node} {last : Prop} {o : BatchOutcome}

theorem BatchChecked.partner (h : BatchChecked s n last o t) :
    t.batch n.partner = s.batch n.partner ∧ t.notice n.partner = s.notice n.partner := by
  by_cases hl : last
  · obtain ⟨hbatch, hnotice⟩ := closeBatch_partner s n o
    exact ⟨(h.ended hl).partner.trans hbatch,
      (congrArg (fun u => State.notice u n.partner) (h.ended hl).frame :).trans hnotice⟩
  · rw [h.goesOn hl]
    exact ⟨rfl, rfl⟩

theorem BatchChecked.notice (h : BatchChecked s n last o t) (hl : last) :
    t.notice n = (s.closeBatch n o).notice n :=
  (congrArg (fun u => State.notice u n) (h.ended hl).frame :)

end

/-- R99: which slots are deferred does not change with the end of the batch. -/
theorem defers_iff {s t : State} {n : Node} {i : Slot} (hslot : t.slot i = s.slot i)
    (hleases : t.leases = s.leases) (htime : t.time = s.time) : t.defers n i ↔
      (s.slot i).autoPending = some n ∧ (s.slot i).phase = .owned ∧ (s.slot i).owner = some n.partner ∧
        s.staysGone n.partner = true ∧ (s.slot i).policy = .auto ∧ s.live n = true := by
  have hstays : t.staysGone n.partner = s.staysGone n.partner := by
    unfold State.staysGone State.gone State.lease
    rw [hleases, htime]
  have hlive : t.live n = s.live n := by
    unfold State.live State.lease
    rw [hleases]
  unfold State.defers State.stillQualifies
  dsimp only
  rw [hslot, hstays, hlive]
  simp only [Bool.and_eq_true, decide_eq_true_eq, and_assoc]

/-- R99: each slot but the committed one, in the records from before the commit's end. -/
theorem ClaimsDeferred.slots {s x t : State} {n : Node} {i₀ : Slot} {joins : Slot → Prop}
    (h : ClaimsDeferred x n t) (hj : ∀ i, x.defers n i ↔ joins i) (hslot : ∀ i, i ≠ i₀ → x.slot i = s.slot i)
    (hpartner : ∀ i, joins i → (s.slot i).owner = some n.partner) {i : Slot} (hi : i ≠ i₀) :
    (joins i → t.slot i = { s.slot i with
        phase := .claimed, batch := some n, target := none, path := none, drainDeadline := none
        autoPending := none } ∧
      ∃ j ∈ (t.batch n).members, j.slot = i ∧ j.status = .gathered ∧ j.oldOwner = some n.partner) ∧
    (¬joins i → (s.slot i).autoPending = some n → t.slot i = { s.slot i with autoPending := none }) ∧
    ((s.slot i).autoPending ≠ some n → t.slot i = s.slot i) := by
  have hsame := hslot i hi
  refine ⟨fun hjoin => ?_, fun hno hpending => ?_, fun hpending => ?_⟩
  · obtain ⟨hrecord, j, hm, hjs, hst, hold⟩ := h.joined i ((hj i).2 hjoin)
    rw [hsame] at hrecord hold
    exact ⟨hrecord, j, hm, hjs, hst, hold.trans (hpartner i hjoin)⟩
  · have hrecord := h.unmarked i (mt (hj i).1 hno) (by rw [hsame]; exact hpending)
    rwa [hsame] at hrecord
  · exact (h.stands i (by rw [hsame]; exact hpending)).trans hsame

/-- R9, R95, R10: the end of a takeover commit whose claimant is not gone. -/
theorem commitDone_takeover {s : State} {i : Slot} {n : Node} {m : Member} (stored : Bool)
    (hphase : (s.slot i).phase = .committing) (hpath : (s.slot i).path = some .takeover)
    (howner : (s.slot i).owner = some n) (hmark : (s.slot i).autoPending = none) (hgone : s.gone n = false)
    (hw : s.timing.gatherWindow ≠ 0) (hm : m ∈ (s.batch n).members) (hi : m.slot = i)
    (hnodup : ((s.batch n).members.map Member.slot).Nodup)
    (hprior : m.prior = .owned ∧ m.oldOwner = some n.partner ∨ m.prior = .unowned) :
    ∃ w, MemberTaken s i stored n m w ∧ BatchChecked w n (batchDone (w.batch n) = true)
      (runOutcome (w.batch n).members) (commitDone i stored s) ∧ (commitDone i stored s).slot i = (s.slot i).rest := by
  have taken := memberDone_taken stored hpath howner hm hi hnodup hprior
  have hdone : commitDone i stored s = commitCheckWith runBatch i (checkBatchWith runBatch n
      ((s.setSlot i (s.slot i).rest).commitResults i (s.slot i) stored)) := by
    unfold commitDone finishWith
    rw [if_pos hphase]
    unfold afterResultsWith
    simp only [hpath, howner]
  generalize (s.setSlot i (s.slot i).rest).commitResults i (s.slot i) stored = w at taken hdone
  have htiming : w.timing = s.timing := (congrArg State.timing taken.frame :)
  have checked := checkBatchWith_checked runBatch n (s := w) (by rw [htiming]; exact hw)
  have hrest : w.slot i = (s.slot i).rest := (taken.slot i).trans (if_pos rfl)
  have hslot : (checkBatchWith runBatch n w).slot i = (s.slot i).rest := by
    by_cases hl : batchDone (w.batch n) = true
    · have hstands := (checked.ended hl).stands i (by
        rw [show (w.closeBatch n _).slot i = w.slot i from rfl, hrest]
        exact fun h => absurd (hmark.symm.trans h) nofun)
      exact hstands.trans hrest
    · rw [checked.goesOn hl, hrest]
  have hoff : commitDone i stored s = checkBatchWith runBatch n w := by
    rw [hdone]
    refine commitCheckWith_off fun x hx => ?_
    have hxn : some n = some x := by
      rw [← howner, ← hx, hslot]
      rfl
    cases hxn
    exact (congrArg (fun u => State.gone u n) checked.frame :).trans
      ((congrArg (fun u => State.gone u n) taken.frame :).trans hgone)
  rw [hoff]
  exact ⟨w, taken, checked, hslot⟩

/-- Settles O47: the member's results (`memberDone_taken`), the end of the batch and the deferred claims
(`deferredWith_deferred`). -/
theorem takeoverCommitEndsMemberAndBatch : Obligations.TakeoverCommitEndsMemberAndBatch := by
  rintro s u k d n m hrun hmode hlo hhi hwaits hqueue hphase hpath howner hmark hgone hw hm hi hnodup hprior g ms
    rfl hms last hlast joins hjoins told htold taken htaken ended hended
  obtain ⟨w, hmember, hchecked, hslot⟩ := commitDone_takeover (s := s.setStore (s.store.write u)) true hphase hpath
    howner hmark hgone hw hm hi hnodup hprior
  have hexec : exec .storeWriteDone s = .next (commitDone u.slot true (s.setStore (s.store.write u))).storeReady := by
    rw [exec_storeWriteDone hrun hmode hlo hhi, completeUpdate, if_pos hwaits]
  generalize commitDone u.slot true (s.setStore (s.store.write u)) = t at hchecked hslot hexec
  have hbatch : w.batch n = { s.batch n with members := ms } := hmember.batch.trans (by rw [hms]; rfl)
  have hdone : batchDone (w.batch n) = true ↔ last := by
    rw [hlast, hbatch]
    simp [batchDone]
  have hnow : w.now = s.now := (congrArg State.now hmember.frame :)
  have hleases : w.leases = s.leases := (congrArg State.leases hmember.frame :)
  have htime : w.time = s.time := (congrArg State.time hmember.frame :)
  have htiming : w.timing = s.timing := (congrArg State.timing hmember.frame :)
  have hother : ∀ i, i ≠ u.slot → w.slot i = s.slot i := fun i hne => (hmember.slot i).trans (if_neg hne)
  have hrest := hslot.trans (SlotRec.rest_owned howner)
  have htold1 : w.notice n = (s.notice n).push taken := hmember.told.trans (by rw [htaken]; rfl)
  have houtcome : runOutcome (w.batch n).members =
      if ∀ j ∈ ms, j.status ≠ .skippedHeld then .allTaken else .partialTaken := by
    rw [hbatch]
    exact runOutcome_memberTaken hm hi _ true hms
  rw [houtcome] at hchecked
  have hdefers : ∀ o i, (w.closeBatch n o).defers n i ↔ joins i := by
    intro o i
    rw [hjoins]
    by_cases hne : i = u.slot
    · subst hne
      have hnone : ((w.closeBatch n o).slot u.slot).autoPending = none :=
        (congrArg SlotRec.autoPending ((hmember.slot u.slot).trans (if_pos rfl))).trans hmark
      simp [State.defers, hnone, hmark]
    · exact defers_iff (hother i hne) hleases htime
  refine ⟨t.storeReady, hexec, hrest, ?_, ?_, ?_, ?_, ?_, ?_, fun hl => ?_, fun hl => ?_⟩
  · exact (congrArg (fun v => State.report v u.slot) hchecked.frame :).trans hmember.report
  · intro hp r hr hon hmask hlen
    have hlost : t.notice n.partner = _ := hchecked.partner.2.trans (hmember.lost hp)
    refine (congrArg NoticeQueue.queue hlost).trans ((push_queue _ (by exact hon) (by exact hmask)
      (by exact hlen)).trans ?_)
    rw [show (s.setStore (s.store.write u)).report u.slot = some r from hr]
    rfl
  · exact hchecked.partner.1.trans hmember.partner
  · exact (congrArg State.bays hchecked.frame :).trans (congrArg State.bays hmember.frame :)
  · exact (congrArg State.engines hchecked.frame :).trans (congrArg State.engines hmember.frame :)
  · exact (congrArg State.leases hchecked.frame :).trans hleases
  · have hopen := hchecked.goesOn fun h => hl (hdone.1 h)
    refine ⟨(htold _ _).2 fun hon hmask hlen => ?_, ?_, fun i hne => ?_⟩
    · exact (congrArg (fun v => (State.notice v n).queue) hopen).trans
        ((congrArg NoticeQueue.queue htold1).trans (push_queue _ hon hmask (by simpa [Nat.succ_le_iff] using hlen)))
    · exact (congrArg (fun v => State.batch v n) hopen).trans hbatch
    · exact (congrArg (fun v => State.slot v i) hopen).trans (hother i hne)
  · have hclosed := hchecked.ended (hdone.2 hl)
    have hpartner : ∀ i, joins i → (s.slot i).owner = some n.partner := fun i hj => by
      obtain ⟨-, -, howner', -⟩ := (hjoins i).1 hj
      exact howner'
    refine ⟨(htold _ _).2 fun hon hmask hlen => ?_, fun hno => ?_, fun hsome => ?_, fun i hne =>
      hclosed.slots (hdefers _) hother hpartner hne⟩
    · have hnotice := hchecked.notice (hdone.2 hl)
      rw [closeBatch_notice, htold1, hbatch, hnow] at hnotice
      exact (congrArg NoticeQueue.queue hnotice).trans (push_push_queue taken _ hon hmask hlen)
    · have hsame := hclosed.unchanged fun ⟨i, h⟩ => hno ⟨i, (hdefers _ i).1 h⟩
      refine hsame.trans ?_
      rw [closeBatch_batch, hbatch, hnow, hended]
    · obtain ⟨i, h⟩ := hsome
      obtain ⟨hstate, horigin, hnumber, hdeadline⟩ := hclosed.created ⟨i, (hdefers _ i).2 h⟩
      refine ⟨hstate, horigin, hnumber.trans ?_, hdeadline.trans ?_⟩
      · rw [closeBatch_batch, hbatch]
      · rw [show (w.closeBatch n _).now = w.now from rfl, show (w.closeBatch n _).timing = w.timing from rfl, hnow,
          htiming]
        rfl

end Sys2Proof.Machine
end

section
/-! The grade of a requested period (R27): the place of a period in the table of grades. -/

namespace Sys2Proof.Machine

/-- In an ascending list the entries not above a bound are the first ones. -/
theorem getElem_le_iff_lt_countBelow {l : List Nat} (h : l.Pairwise (· < ·)) (p : Nat) {i : Nat}
    (hi : i < l.length) : l[i] ≤ p ↔ i < (l.filter (fun g => decide (g ≤ p))).length := by
  induction l generalizing i with
  | nil => exact absurd hi (Nat.not_lt_zero i)
  | cons x l ih =>
    obtain ⟨hx, hl⟩ := List.pairwise_cons.1 h
    by_cases hxp : x ≤ p
    · rw [List.filter_cons, if_pos (decide_eq_true hxp)]
      cases i with
      | zero => simpa using hxp
      | succ i => simpa using ih hl (i := i) (by simpa using hi)
    · have hnone : (x :: l).filter (fun g => decide (g ≤ p)) = [] := by
        refine List.filter_eq_nil_iff.2 fun g hg => ?_
        rcases List.mem_cons.1 hg with rfl | hg
        · simpa using hxp
        · have := hx g hg
          simp only [decide_eq_true_eq]
          omega
      have hge : x ≤ (x :: l)[i] := by
        cases i with
        | zero => exact le_rfl
        | succ i => exact (hx _ (List.getElem_mem _)).le
      rw [hnone, List.length_nil]
      omega

/-- The number of grades not above a period. -/
def gradesBelow (p : Nat) : Nat := (grades.filter (fun g => decide (g ≤ p))).length

theorem gradesBelow_le (p : Nat) : gradesBelow p ≤ 10 := List.length_filter_le _ grades

/-- A grade is not above a period exactly when its index counts among those below it. -/
theorem gradeMs_le_iff (i : Fin 10) (p : Nat) : gradeMs i ≤ p ↔ i.val < gradesBelow p := by
  have hi : i.val < grades.length := i.isLt
  have hget : gradeMs i = grades[i.val] := List.getD_eq_getElem grades 0 hi
  rw [hget]
  exact getElem_le_iff_lt_countBelow (by decide) p hi

/-- The grades ascend with their index. -/
theorem gradeMs_mono : ∀ i j : Fin 10, i ≤ j → gradeMs i ≤ gradeMs j := by decide

theorem gradeIndex_val (p : Nat) : (gradeIndex p).val = gradesBelow p - 1 := by
  have hle := gradesBelow_le p
  exact Nat.mod_eq_of_lt (show gradesBelow p - 1 < 10 by omega)

theorem gradeIndex_largest {p : Nat} (h : 20 ≤ p) :
    gradeMs (gradeIndex p) ≤ p ∧ ∀ i, gradeMs i ≤ p → gradeMs i ≤ gradeMs (gradeIndex p) := by
  have hfirst := (gradeMs_le_iff 0 p).1 h
  have hval := gradeIndex_val p
  refine ⟨(gradeMs_le_iff _ p).2 (by omega), fun i hi => gradeMs_mono i _ (Fin.le_def.2 ?_)⟩
  have := (gradeMs_le_iff i p).1 hi
  omega

theorem gradeIndex_below {p : Nat} (h : p < 20) : gradeIndex p = 0 := by
  have hnot : ¬(0 : Fin 10).val < gradesBelow p := mt (gradeMs_le_iff 0 p).2 (Nat.not_le.2 h)
  have hval := gradeIndex_val p
  exact Fin.ext (by simp at hnot ⊢; omega)

theorem gradeIndex_above {p : Nat} (h : 20000 < p) : gradeIndex p = 9 := by
  have hlast : (9 : Fin 10).val < gradesBelow p := (gradeMs_le_iff 9 p).1 h.le
  have hval := gradeIndex_val p
  have hle := gradesBelow_le p
  exact Fin.ext (by simp at hlast ⊢; omega)

theorem gradeRounded_iff (p : Nat) : gradeRounded p = true ↔ p ≠ gradeMs (gradeIndex p) := decide_eq_true_iff

/-- Settles O11, by the place of the period in the ascending table. -/
theorem gradeIsTheLargestNotAbove : Obligations.GradeIsTheLargestNotAbove := by
  intro p
  refine ⟨gradeIndex_largest, fun h => ?_, fun h => ?_, fun h => decide_eq_false (Nat.not_lt.2 h),
    gradeRounded_iff p, by decide⟩
  · have hgrade : gradeMs (gradeIndex p) = 20 := by rw [gradeIndex_below h]; rfl
    exact ⟨hgrade, decide_eq_true h, (gradeRounded_iff p).2 (by omega)⟩
  · have hgrade : gradeMs (gradeIndex p) = 20000 := by rw [gradeIndex_above h]; rfl
    exact ⟨hgrade, (gradeRounded_iff p).2 (by omega)⟩

end Sys2Proof.Machine
end

section
/-! Deadlines and events that are due, and the automatic claims that follow a lease that is gone (R33, R36,
R42, R83, R98). -/

namespace Sys2Proof.Machine

/-! ### Events that act when they are due (log 4, log 5) -/

theorem next_whenRunning {s t : State} {f : State → State} (h : s.running = true) (hf : f s = t) :
    (.next (whenRunning f s) : Host.Outcome State Fault Refusal) = .next t := by
  rw [whenRunning_on h, hf]

/-- An event whose condition holds. -/
theorem next_due {s t : State} {p : State → Bool} {f : State → State} (h : s.running = true) (hp : p s = true)
    (hf : f s = t) : (.next (whenRunning (whenTrue p f) s) : Host.Outcome State Fault Refusal) = .next t :=
  next_whenRunning h ((whenTrue_on hp).trans hf)

/-- An event whose condition does not hold changes nothing. -/
theorem next_notDue {s : State} {p : State → Bool} {f : State → State} (h : s.running = true)
    (hp : p s = false) : (.next (whenRunning (whenTrue p f) s) : Host.Outcome State Fault Refusal) = .next s :=
  next_whenRunning h (whenTrue_off hp)

theorem live_of_lease {s t : State} {n : Node} (h : t.lease n = s.lease n) : t.live n = s.live n := by
  unfold State.live
  rw [h]

theorem ne_absent_of_live {s : State} {n : Node} (h : s.live n = true) : (s.lease n).state ≠ .absent := by
  intro habsent
  simp [State.live, habsent] at h

theorem notLive_of_absent {s : State} {n : Node} (h : (s.lease n).state = .absent) : s.live n = false := by
  simp [State.live, h]

/-! ### Slots that join a batch -/

theorem mem_joinMembers (i : Slot) (p : PriorPhase) (o : Owner) (ms : List Member) :
    (⟨i, p, o, .gathered, none, none, none⟩ : Member) ∈ joinMembers i p o ms := by
  unfold joinMembers
  dsimp only
  split
  · rename_i h
    obtain ⟨k, hk, hslot⟩ := List.any_eq_true.1 h
    exact List.mem_map.2 ⟨k, hk, if_pos (of_decide_eq_true hslot)⟩
  · exact List.mem_append_right _ (List.mem_singleton.2 rfl)

/-- R81: the record of each slot that joins, with its prior phase. -/
theorem mem_joined {n : Node} (is : List Slot) (hnodup : is.Nodup) (s : State) {j : Slot} (hj : j ∈ is) :
    (⟨j, priorOf (s.slot j), (s.slot j).owner, .gathered, none, none, none⟩ : Member) ∈
      ((is.foldl (fun s i => s.join n i) s).batch n).members := by
  induction is generalizing s with
  | nil => exact absurd hj List.not_mem_nil
  | cons i is ih =>
    obtain ⟨hi, hrest⟩ := List.nodup_cons.1 hnodup
    have hslot : ∀ k, k ≠ i → (s.join n i).slot k = s.slot k := fun k hk =>
      (State.setSlot_slot s i _ k).trans (if_neg hk)
    have hbatch : ((s.join n i).batch n).members =
        joinMembers i (priorOf (s.slot i)) (s.slot i).owner (s.batch n).members :=
      congrArg Batch.members (State.setBatch_batch_same _ n _)
    rw [List.foldl_cons]
    rcases List.mem_cons.1 hj with rfl | hj
    · exact (SlotsJoined.fold is (s.join n j)).others _ (by rw [hbatch]; exact mem_joinMembers _ _ _ _) hi
    · have hne : j ≠ i := fun h => hi (h ▸ hj)
      have hmem := ih hrest (s.join n i) hj
      rwa [hslot j hne] at hmem

/-- R98, R99: the auto-pending marks of a list of slots are written. -/
theorem setAutoPending_fold (mark : Option Node) (is : List Slot) (s : State) :
    { is.foldl (fun s i => s.setAutoPending i mark) s with slots := s.slots } = s ∧
      ∀ j, (is.foldl (fun s i => s.setAutoPending i mark) s).slot j =
        if j ∈ is then { s.slot j with autoPending := mark } else s.slot j := by
  induction is generalizing s with
  | nil => exact ⟨rfl, fun _ => rfl⟩
  | cons i is ih =>
    obtain ⟨hframe, hslot⟩ := ih (s.setAutoPending i mark)
    refine ⟨(congrArg (fun u : State => { u with slots := s.slots }) hframe :), fun j => (hslot j).trans ?_⟩
    rw [show (s.setAutoPending i mark).slot j = if j = i then { s.slot i with autoPending := mark } else s.slot j
      from State.setSlot_slot s i _ j]
    by_cases hj : j = i
    · subst hj
      simp
    · simp [hj]

theorem createBatch_batch (s : State) (n : Node) (o : Origin) : (s.createBatch n o).batch n =
    ⟨.gathering, (s.batch n).number + 1, some o, [], none, none, none, none⟩ :=
  State.setBatch_batch_same s n _

/-! ### The automatic-claim trigger (R98) -/

/-- R98: the slots a trigger for the node claims. -/
def State.autoSlots (s : State) (x : Node) : List Slot :=
  allSlots.filter (fun i => decide ((s.slot i).phase = .owned) && decide ((s.slot i).owner = some x) &&
    decide ((s.slot i).policy = .auto))

theorem mem_autoSlots {s : State} {x : Node} {i : Slot} : i ∈ s.autoSlots x ↔
    (s.slot i).phase = .owned ∧ (s.slot i).owner = some x ∧ (s.slot i).policy = .auto := by
  simp [State.autoSlots, mem_allSlots, and_assoc]

theorem autoSlots_nodup (s : State) (x : Node) : (s.autoSlots x).Nodup :=
  List.Nodup.filter _ (by decide)

theorem trigger_live {s : State} {x : Node} (h : s.live x.partner = true) :
    trigger x s = claimForWith runBatch x.partner (s.autoSlots x) s := if_pos h

/-- Slots `is` that joined the gathering batch of `n`, which then gathers for a full window (R81, R83, R98). -/
structure SlotsGathered (s : State) (n : Node) (is : List Slot) (t : State) : Prop where
  frame : { t with slots := s.slots, batches := s.batches } = s
  state : (t.batch n).state = (s.batch n).state
  number : (t.batch n).number = (s.batch n).number
  origin : (t.batch n).origin = (s.batch n).origin
  deadline : (t.batch n).gatherDeadline = some (later s.now (s.timing.gatherWindow * 10))
  slot : ∀ j, t.slot j = if j ∈ is then (s.slot j).enter .claimed none none (some n) none else s.slot j
  member : ∀ j ∈ is, (⟨j, priorOf (s.slot j), (s.slot j).owner, .gathered, none, none, none⟩ : Member) ∈
    (t.batch n).members

theorem gatherWith_gathered {s : State} (run : Node → State → State) (n : Node) {is : List Slot}
    (hnodup : is.Nodup) (hw : s.timing.gatherWindow ≠ 0) :
    SlotsGathered s n is (gatherWith run n (is.foldl (fun s i => s.join n i) s)) := by
  have joined := SlotsJoined.fold (n := n) is s
  have hmember := fun j => mem_joined (n := n) is hnodup s (j := j)
  generalize is.foldl (fun s i => s.join n i) s = v at joined hmember
  have htiming : v.timing = s.timing := (congrArg State.timing joined.frame :)
  have hnow : v.now = s.now := (congrArg State.now joined.frame :)
  have hgather : gatherWith run n v = v.setBatch n
      { v.batch n with gatherDeadline := some (later s.now (s.timing.gatherWindow * 10)) } := by
    unfold gatherWith
    dsimp only
    rw [if_neg (by rw [State.setBatch_timing, htiming]; exact hw), hnow, htiming]
  rw [hgather]
  refine ⟨(congrArg (fun u : State => { u with slots := s.slots, batches := s.batches }) joined.frame :),
    ?_, ?_, ?_, ?_, joined.slot, fun j hj => ?_⟩ <;> rw [State.setBatch_batch_same]
  · exact (congrArg Batch.state joined.batch :)
  · exact (congrArg Batch.number joined.batch :)
  · exact (congrArg Batch.origin joined.batch :)
  · exact hmember j hj

theorem claimFor_running {s : State} (run : Node → State → State) {y : Node} (is : List Slot)
    (h : (s.batch y).state = .running) :
    claimForWith run y is s = is.foldl (fun s i => s.setAutoPending i (some y)) s := by
  unfold claimForWith
  split
  · rename_i hnil
    rw [hnil]
    rfl
  · rw [h]

theorem claimFor_gathering {s : State} (run : Node → State → State) {y : Node} {is : List Slot} (hne : is ≠ [])
    (h : (s.batch y).state = .gathering) :
    claimForWith run y is s = gatherWith run y (is.foldl (fun s i => s.join y i) s) := by
  unfold claimForWith
  rw [if_neg hne, h]

theorem claimFor_new {s : State} (run : Node → State → State) {y : Node} {is : List Slot} (hne : is ≠ [])
    (h : (s.batch y).state = .noBatch ∨ (s.batch y).state = .ended) :
    claimForWith run y is s =
      gatherWith run y (is.foldl (fun s i => s.join y i) (s.createBatch y .auto)) := by
  unfold claimForWith
  rw [if_neg hne]
  rcases h with h | h <;> rw [h]

/-- What the trigger for a gone node, whose partner is live, changes with a gather window above 0 or a batch
that runs: slots and batches alone. -/
theorem trigger_frame {s : State} {x : Node} (hlive : s.live x.partner = true)
    (hw : s.timing.gatherWindow ≠ 0 ∨ (s.batch x.partner).state = .running) :
    { trigger x s with slots := s.slots, batches := s.batches } = s := by
  rw [trigger_live hlive]
  by_cases hne : s.autoSlots x = []
  · unfold claimForWith
    rw [if_pos hne]
  · cases hstate : (s.batch x.partner).state with
    | running =>
      rw [claimFor_running _ _ hstate]
      exact (congrArg (fun u : State => { u with batches := s.batches }) (setAutoPending_fold _ _ s).1 :)
    | gathering =>
      rw [claimFor_gathering _ hne hstate]
      exact (gatherWith_gathered _ _ (autoSlots_nodup s x) (hw.resolve_right (by simp [hstate]))).frame
    | noBatch | ended =>
      rw [claimFor_new _ hne (by simp [hstate])]
      exact (congrArg (fun u : State => { u with batches := s.batches })
        (gatherWith_gathered (s := s.createBatch x.partner .auto) _ _ (autoSlots_nodup s x)
          (hw.resolve_right (by simp [hstate]))).frame :)

/-! ### The events by which an owner becomes gone -/

/-- The state `u` in which the event `c` runs the trigger for node `x`: its lease has the state `st`, and nothing
the trigger looks at has changed otherwise. -/
structure RunsTrigger (s : State) (x : Node) (c : Instr) (st : LeaseState) (u : State) : Prop where
  slots : u.slots = s.slots
  batches : u.batches = s.batches
  timing : u.timing = s.timing
  now : u.now = s.now
  lease : (u.lease x).state = st
  live : u.live x.partner = true
  runs : { trigger x u with slots := u.slots, batches := u.batches } = u → exec c s = .next (trigger x u)

theorem leaseLost_live {s : State} {x : Node} (l : Lease) (b : NoticeBody) (hp : s.live x.partner = true) :
    (s.leaseLost x l b).live x.partner = true :=
  (live_after s x l none b).trans hp

theorem expiryDeadline_runsTrigger {s : State} {x : Node} (hr : s.running = true) (hl : s.live x = true)
    (he : (s.lease x).expiry = some s.now) (hb : (s.batch x).state ≠ .gathering)
    (hs : s.sweep.runsFor x = false) (hp : s.live x.partner = true) :
    RunsTrigger s x (.expiryDeadline x) .expired (s.leaseLost x ((s.lease x).stop .expired)
      (.partnerExpired .expired ((s.lease x).grant.map Grant.lastHeartbeat))) := by
  refine ⟨rfl, rfl, rfl, rfl, congrArg Lease.state (leaseLost_lease _ _), leaseLost_live _ _ hp, fun hframe =>
    next_due hr (by simp [hl, he]) ?_⟩
  unfold expire
  dsimp only
  rw [claimantLost_off (by exact hb)]
  exact endSweepOf_off _ ((congrArg (fun u : State => u.sweep.runsFor x) hframe :).trans hs)

/-- R36: a LEAVE of a live lease whose node gathers no batch and runs no sweep runs the trigger after the
grace. -/
theorem leaveLive_quiet {s : State} {x : Node} (hb : (s.batch x).state ≠ .gathering)
    (hs : s.sweep.runsFor x = false) :
    leaveLive x s = if s.time.grace = true then s.hasLeft x else trigger x (s.hasLeft x) := by
  unfold leaveLive
  dsimp only
  rw [claimantLost_off (by exact hb), endSweepOf_off _ (by exact hs)]
  rfl

theorem leave_runsTrigger {s : State} {x : Node} (id : BitVec 16) (ht : s.Takes x) (hl : s.live x = true)
    (hg : s.time.grace = false) (hb : (s.batch x).state ≠ .gathering) (hs : s.sweep.runsFor x = false)
    (hp : s.live x.partner = true) : RunsTrigger s x (.leave x id) .absent
      ((s.answered x id 0x11 .done (u8 (leaseCode (s.lease x).state))).hasLeft x) := by
  refine ⟨rfl, rfl, rfl, rfl, congrArg Lease.state (leaseLost_lease _ _), leaseLost_live _ _ hp, fun _ =>
    next_whenUp ht ?_⟩
  rw [reply_up ht.2]
  refine (if_pos (by exact hl)).trans ((leaveLive_quiet (by exact hb) (by exact hs)).trans (if_neg ?_))
  exact Bool.eq_false_iff.1 hg

/-- R42 item 1: the grace has ended, and both nodes are told. -/
def State.graceEnded (s : State) : State :=
  (s.setTime { s.time with grace := false }).raiseBoth none
    (.graceEnded (s.lease .a).state (s.lease .b).state)

/-- R42 items 1 and 2: what the end of the grace tells. -/
def State.graceOver (s : State) : State := (s.graceEnded.tellNeverSeen .a).tellNeverSeen .b

/-- R42: after the notices of the end of the grace come the triggers. -/
theorem graceEnd_eq (s : State) : graceEnd s = triggerIfAbsent .b (triggerIfAbsent .a s.graceOver) := rfl

theorem tellNeverSeen_frame (s : State) (n : Node) : { s.tellNeverSeen n with notices := s.notices } = s := by
  unfold State.tellNeverSeen
  split <;> rfl

/-- The end of the grace up to the trigger concerns the timebase and the notices alone. -/
theorem graceOver_frame (s : State) : { s.graceOver with time := s.time, notices := s.notices } = s ∧
    s.graceOver.time = { s.time with grace := false } := by
  have ha := tellNeverSeen_frame s.graceEnded .a
  have hb := tellNeverSeen_frame (s.graceEnded.tellNeverSeen .a) .b
  refine ⟨?_, (congrArg State.time hb :).trans (congrArg State.time ha :)⟩
  exact (congrArg (fun u : State => { u with time := s.time, notices := s.notices }) hb :).trans
    (congrArg (fun u : State => { u with time := s.time, notices := s.notices }) ha :)

theorem triggerIfAbsent_absent {s : State} {n : Node} (h : (s.lease n).state = .absent) :
    triggerIfAbsent n s = trigger n s := if_pos h

theorem triggerIfAbsent_off {s : State} {n : Node} (h : (s.lease n).state ≠ .absent) :
    triggerIfAbsent n s = s := if_neg h

/-- With one node ABSENT and its partner live the trigger runs for that node alone. -/
theorem triggerIfAbsent_one {u : State} {x : Node} (habsent : (u.lease x).state = .absent)
    (hlive : u.live x.partner = true)
    (hframe : { trigger x u with slots := u.slots, batches := u.batches } = u) :
    triggerIfAbsent .b (triggerIfAbsent .a u) = trigger x u := by
  have hpartner := ne_absent_of_live hlive
  cases x with
  | a =>
    rw [triggerIfAbsent_absent habsent]
    refine triggerIfAbsent_off ?_
    rwa [show (trigger .a u).lease .b = u.lease .b from (congrArg (fun z => State.lease z .b) hframe :)]
  | b => rw [triggerIfAbsent_off (n := .a) hpartner, triggerIfAbsent_absent habsent]

theorem graceEnd_runsTrigger {s : State} {x : Node} (hr : s.running = true) (hg : s.time.grace = true)
    (hn : s.now = 300000) (ha : (s.lease x).state = .absent) (hp : s.live x.partner = true) :
    RunsTrigger s x .graceEnd .absent s.graceOver := by
  obtain ⟨hframe, htime⟩ := graceOver_frame s
  have hlease : ∀ n, s.graceOver.lease n = s.lease n := fun n => (congrArg (fun u => State.lease u n) hframe :)
  have habsent : (s.graceOver.lease x).state = .absent := by rw [hlease, ha]
  have hlive : s.graceOver.live x.partner = true := (live_of_lease (hlease _)).trans hp
  refine ⟨(congrArg State.slots hframe :), (congrArg State.batches hframe :), (congrArg State.timing hframe :),
    (congrArg Timebase.tick htime :), habsent, hlive, fun htrigger => next_due hr (by simp [hg, hn]) ?_⟩
  rw [graceEnd_eq, triggerIfAbsent_one habsent hlive htrigger]

/-! ### What the trigger comes to -/

section
variable {s u : State} {x : Node} {c : Instr} {st : LeaseState}

theorem RunsTrigger.slot (h : RunsTrigger s x c st u) (i : Slot) : u.slot i = s.slot i :=
  congrArg (fun v : Vector SlotRec 8 => v[i]) h.slots

theorem RunsTrigger.batch (h : RunsTrigger s x c st u) (n : Node) : u.batch n = s.batch n :=
  congrArg (fun p : Pair Batch => p.get n) h.batches

theorem RunsTrigger.mem_autoSlots (h : RunsTrigger s x c st u) (i : Slot) : i ∈ u.autoSlots x ↔
    (s.slot i).phase = .owned ∧ (s.slot i).owner = some x ∧ (s.slot i).policy = .auto := by
  rw [Machine.mem_autoSlots, h.slot]

theorem RunsTrigger.next (h : RunsTrigger s x c st u)
    (hw : s.timing.gatherWindow ≠ 0 ∨ (s.batch x.partner).state = .running) :
    exec c s = .next (trigger x u) ∧ ((trigger x u).lease x).state = st := by
  have hframe := trigger_frame h.live (by rwa [h.timing, h.batch])
  exact ⟨h.runs hframe, (congrArg (fun v => (State.lease v x).state) hframe :).trans h.lease⟩

end

/-- R98: the slots that a trigger claims are CLAIMED from OWNED, and each has a GATHERED member. -/
theorem SlotsGathered.claimed {s w t : State} {x y : Node} {is : List Slot} (h : SlotsGathered w y is t)
    (hslot : ∀ i, w.slot i = s.slot i)
    (hmem : ∀ i, i ∈ is ↔ (s.slot i).phase = .owned ∧ (s.slot i).owner = some x ∧ (s.slot i).policy = .auto) :
    (∀ i ∈ is, t.slot i = { s.slot i with
        phase := .claimed, batch := some y, target := none, path := none, drainDeadline := none } ∧
      ∃ m ∈ (t.batch y).members, m.slot = i ∧ m.status = .gathered ∧ m.prior = .owned ∧ m.oldOwner = some x) ∧
    ∀ i, i ∉ is → t.slot i = s.slot i := by
  refine ⟨fun i hi => ?_, fun i hi => by rw [h.slot, if_neg hi, hslot]⟩
  obtain ⟨howned, howner, -⟩ := (hmem i).1 hi
  refine ⟨?_, _, h.member i hi, rfl, rfl, ?_, ?_⟩
  · rw [h.slot, if_pos hi, hslot]
    rfl
  · rw [hslot]
    exact if_pos howned
  · rw [hslot, howner]

/-- Settles O24: each of the three events runs the trigger in a state with the same slots and batches
(`RunsTrigger`), and the trigger is settled by the state of the partner's batch. -/
theorem goneOwnersAutoSlotsAreClaimed : Obligations.GoneOwnersAutoSlotsAreClaimed := by
  intro s x c st hr hp hevent hquiet picked hpicked hsome claimed hclaimed
  obtain ⟨u, hu⟩ : ∃ u, RunsTrigger s x c st u := by
    rcases hevent with ⟨rfl, rfl, hl, he⟩ | ⟨id, rfl, rfl, ht, hl, hg⟩ | ⟨rfl, rfl, hg, hn, ha⟩
    · exact ⟨_, expiryDeadline_runsTrigger hr hl he (hquiet hl).1 (hquiet hl).2 hp⟩
    · exact ⟨_, leave_runsTrigger id ht hl hg (hquiet hl).1 (hquiet hl).2 hp⟩
    · exact ⟨_, graceEnd_runsTrigger hr hg hn ha hp⟩
  have hmem : ∀ i, i ∈ u.autoSlots x ↔ picked i := fun i => (hu.mem_autoSlots i).trans (hpicked i).symm
  have hne : u.autoSlots x ≠ [] := by
    obtain ⟨i, hi⟩ := hsome
    exact List.ne_nil_of_mem ((hmem i).2 hi)
  have htrigger := trigger_live hu.live
  have gathered : ∀ (w t : State), SlotsGathered w x.partner (u.autoSlots x) t → (∀ i, w.slot i = s.slot i) →
      (w.batch x.partner).state = .gathering → w.now = s.now → w.timing = s.timing → (t.lease x).state = st →
      claimed t := by
    intro w t h hslot hstate hnow htiming hlease
    obtain ⟨hjoined, hstands⟩ := h.claimed hslot hu.mem_autoSlots
    refine (hclaimed t).2 ⟨hlease, h.state.trans hstate, ?_, fun i hi => hjoined i ((hmem i).2 hi),
      fun i hi => hstands i (mt (hmem i).1 hi)⟩
    rw [h.deadline, hnow, htiming]
    rfl
  refine ⟨fun hw => ⟨fun hb => ?_, fun hb => ?_⟩, fun hb => ?_⟩
  · obtain ⟨hexec, hlease⟩ := hu.next (.inl hw)
    have hjoin := gatherWith_gathered (s := u.createBatch x.partner .auto) runBatch x.partner
      (autoSlots_nodup u x) (by exact hu.timing ▸ hw)
    rw [← claimFor_new runBatch hne (by rwa [hu.batch]), ← htrigger] at hjoin
    have hcreated := createBatch_batch u x.partner .auto
    refine ⟨_, hexec, gathered _ _ hjoin hu.slot (congrArg Batch.state hcreated) hu.now hu.timing hlease, ?_, ?_⟩
    · rw [hjoin.origin, hcreated]
    · rw [hjoin.number, hcreated, hu.batch]
  · obtain ⟨hexec, hlease⟩ := hu.next (.inl hw)
    have hjoin := gatherWith_gathered (s := u) runBatch x.partner (autoSlots_nodup u x) (hu.timing ▸ hw)
    have hstate : (u.batch x.partner).state = .gathering := by rw [hu.batch, hb]
    rw [← claimFor_gathering runBatch hne hstate, ← htrigger] at hjoin
    refine ⟨_, hexec, gathered _ _ hjoin hu.slot hstate hu.now hu.timing hlease, ?_, ?_⟩
    · rw [hjoin.origin, hu.batch]
    · rw [hjoin.number, hu.batch]
  · obtain ⟨hexec, hlease⟩ := hu.next (.inr hb)
    rw [claimFor_running _ _ (by rw [hu.batch, hb])] at htrigger
    obtain ⟨hframe, hmarked⟩ := setAutoPending_fold (some x.partner) (u.autoSlots x) u
    rw [← htrigger] at hframe hmarked
    refine ⟨_, hexec, hlease, (congrArg State.batches hframe :).trans hu.batches, fun i hi => ?_, fun i hi => ?_⟩
    · rw [hmarked, if_pos ((hmem i).2 hi), hu.slot]
    · rw [hmarked, if_neg (mt (hmem i).1 hi), hu.slot]

end Sys2Proof.Machine
end

section
/-! The timebase (R37 to R42): the loss and return of the reference, the tick, and the end of the grace. -/

namespace Sys2Proof.Machine

/-! ### The loss of the reference (R39) -/

/-- R39 item 2: the lease of one node after the loss of the reference. -/
def State.leaseAfterLoss (s : State) (n : Node) : Lease :=
  if s.stretchable n = true then (s.lease n).stretch s.now else s.lease n

theorem setLease_self (s : State) (n : Node) : s.setLease n (s.lease n) = s := by
  cases n <;> rfl

theorem stretchLease_eq (s : State) (n : Node) : s.stretchLease n = s.setLease n (s.leaseAfterLoss n) := by
  unfold State.stretchLease State.leaseAfterLoss
  split
  · rfl
  · exact (setLease_self s n).symm

/-- The two leases are stretched independently. -/
theorem stretchLease_both (s : State) :
    (s.stretchLease .a).stretchLease .b = { s with leases := ⟨s.leaseAfterLoss .a, s.leaseAfterLoss .b⟩ } := by
  rw [stretchLease_eq, stretchLease_eq]
  rfl

theorem stretchable_iff (s : State) (n : Node) :
    s.stretchable n = true ↔ s.live n = true ∧ (s.lease n).basis = some .reference := by
  simp [State.stretchable]

/-- The number of leases stretched. -/
theorem length_filter_nodes (p : Node → Bool) : ([Node.a, Node.b].filter p).length =
    (if p .a = true then 1 else 0) + (if p .b = true then 1 else 0) := by
  cases ha : p .a <;> cases hb : p .b <;> simp [ha, hb]

/-- Settles O26: each lease is stretched by itself, and both nodes are told how many were. -/
theorem referenceLossStretchesLeases : Obligations.ReferenceLossStretchesLeases := by
  intro s hr hsource move after k hmove hafter hk
  have hmoved : stretched s.now = move := funext fun d => (hmove d).symm
  have hlease : ∀ n, s.leaseAfterLoss n = after n := by
    intro n
    rw [hafter, ← hmoved]
    unfold State.leaseAfterLoss
    simp only [stretchable_iff]
    rfl
  have hcount : ([Node.a, Node.b].filter s.stretchable).length = k := by
    rw [length_filter_nodes, hk]
    simp only [stretchable_iff]
  refine next_due hr (by simp [hsource]) ?_
  unfold referenceLost
  dsimp only
  rw [hcount, stretchLease_both, ← hlease, ← hlease]
  rfl

/-! ### The tick and the measurement (R37, R38, R40) -/

theorem measure_fallback {s : State} (h : s.time.source = .fallback) : s.measure = { s with
    time := { s.time with measured := measureNext (Config.referenceGap s.freeCount) s.time.measured }
    freeCount := s.freeCount + 1 } := by
  unfold State.measure
  rw [h]

/-- The measurement is complete under FALLBACK at 10,000 ticks. -/
theorem measurable_iff (s : State) :
    s.measurable = true ↔ s.time.source = .fallback ∧ s.time.measured = 10000 := by
  simp [State.measurable]

theorem not_measurable {s : State} (h : s.time.measured ≠ 10000) : s.measurable = false := by
  simp [State.measurable, h]

/-! ### The end of the grace (R42) -/

theorem tellNeverSeen_seen {s : State} {n : Node} (h : (s.lease n).state ≠ .absent) : s.tellNeverSeen n = s :=
  if_neg fun hn => h hn.1

theorem tellNeverSeen_neverSeen {s : State} {n : Node}
    (h : (s.lease n).state = .absent ∧ (s.lease n).absentCause = some .neverSeen) :
    s.tellNeverSeen n = s.raise n.partner none (.partnerExpired .neverSeen none) := if_pos h

/-- With no node ABSENT the end of the grace is told and has no consequence. -/
theorem graceEnd_present {s : State} (h : ∀ n, (s.lease n).state ≠ .absent) : graceEnd s = s.graceEnded := by
  have hlease : ∀ n, (s.graceEnded.lease n).state ≠ .absent := h
  rw [graceEnd_eq, State.graceOver, tellNeverSeen_seen (hlease .a), tellNeverSeen_seen (hlease .b),
    triggerIfAbsent_off (hlease .a), triggerIfAbsent_off (hlease .b)]

/-- With no lease live an ABSENT node's slots are not claimed. -/
theorem triggerIfAbsent_notLive {s : State} {n : Node} (h : s.live n.partner = false) :
    triggerIfAbsent n s = s := by
  unfold triggerIfAbsent
  rw [trigger_off h, ite_self]

/-- With both nodes NEVER_SEEN each partner is told, and nothing is claimed. -/
theorem graceEnd_neverSeen {s : State}
    (h : ∀ n, (s.lease n).state = .absent ∧ (s.lease n).absentCause = some .neverSeen) :
    graceEnd s = (s.graceEnded.raise .b none (.partnerExpired .neverSeen none)).raise .a none
      (.partnerExpired .neverSeen none) := by
  have hlive : ∀ n, s.live n = false := fun n => notLive_of_absent (h n).1
  rw [graceEnd_eq, State.graceOver, tellNeverSeen_neverSeen (n := .a) (by exact h .a),
    tellNeverSeen_neverSeen (n := .b) (by exact h .b), triggerIfAbsent_notLive (n := .a) (by exact hlive .b),
    triggerIfAbsent_notLive (n := .b) (by exact hlive .a)]
  rfl

/-- Settles O25, command by command; the two ends of the grace are `graceEnd_present` and
`graceEnd_neverSeen`. -/
theorem tickReferenceAndGraceEnd : Obligations.TickReferenceAndGraceEnd := by
  intro s hr
  refine ⟨fun hsource => ?_, fun hsource => ⟨Config.referenceGap s.freeCount, ?_⟩, fun hsource hm hq => ?_,
    fun hsource hm hq => ?_, fun hm => ⟨?_, ?_⟩, fun hg hn t ht => ⟨fun ha hb => ?_, fun hnever => ?_⟩⟩
  · exact next_whenRunning hr (measure_reference (by exact hsource))
  · exact next_whenRunning hr (measure_fallback (by exact hsource))
  · exact next_due hr (by simp [(measurable_iff s).2 ⟨hsource, hm⟩, hq]) rfl
  · exact next_due hr (by simp [(measurable_iff s).2 ⟨hsource, hm⟩, hq]) rfl
  · exact next_notDue hr (by simp [not_measurable hm])
  · exact next_notDue hr (by simp [not_measurable hm])
  · subst ht
    refine next_due hr (by simp [hg, State.now, hn]) (graceEnd_present fun n => ?_)
    cases n
    · exact ha
    · exact hb
  · subst ht
    exact next_due hr (by simp [hg, State.now, hn]) (graceEnd_neverSeen hnever)

end Sys2Proof.Machine
end

section
/-! The life of a lease (R26 to R36) and the port it comes by (R150 to R154): a heartbeat, LEAVE, the lapse and
expiry deadlines, RESUME, training and the loss of the link. -/

namespace Sys2Proof.Machine

/-! ### HEARTBEAT (R26 to R31) -/

theorem switchOf_none {b : Byte} (h : 1 < b.toNat) : switchOf b = none := by
  unfold switchOf
  rw [if_neg (by rintro rfl; exact absurd h (by decide)), if_neg (by rintro rfl; exact absurd h (by decide))]

theorem switchOf_some {b : Byte} (h : b.toNat ≤ 1) : switchOf b = some (decide (b = 1)) := by
  unfold switchOf
  by_cases h0 : b = 0
  · subst h0
    rfl
  · have h1 : b = 1 := by bv_omega
    subst h1
    rfl

/-- R84: the return of an owner whose partner gathers no batch has no consequence. -/
theorem ownerReturned_off {s : State} {x : Node} (h : (s.batch x.partner).state ≠ .gathering) :
    ownerReturned x s = s := if_neg h

/-- R31: the partner is told of a heartbeat's lease where the one before it was EXPIRED or ABSENT. -/
theorem tellReturned_beat (s : State) (n : Node) (l : Lease) (now : Tick) (src : Source) (period miss : Nat)
    (fast : Bool) : s.tellReturned n l (l.beat now src period miss fast) =
      if l.state = .expired ∨ l.state = .absent then
        s.raise n.partner none (.partnerReturned l.state (if l.state = .absent then l.absentCause else none)
          (gradeIndex period) (missOf miss)
          (later now (spanTicks (gradeMs (gradeIndex period)) (missOf miss) (tolerance src))))
      else s := rfl

/-- A heartbeat of a node whose partner gathers no batch. -/
theorem heartbeat_plain {s : State} {n : Node} (hup : (s.port n).state = .up)
    (hb : (s.batch n.partner).state ≠ .gathering) (id : BitVec 16) (period miss : Nat) (fast : Bool) {l : Lease}
    (hl : (s.lease n).beat s.now s.time.source period miss fast = l) {told : State}
    (htold : ((s.setLease n l).answered n id 0x10 .done (heartbeatReply (s.lease n) l (s.lease n.partner) period miss
      s.time.source s.time.grace s.now)).tellReturned n (s.lease n) l = told) :
    heartbeat n id period miss fast s = told := by
  have hbatch : told.batch n.partner = s.batch n.partner := by
    rw [← htold]
    unfold State.tellReturned
    split
    · split <;> rfl
    · rfl
  unfold heartbeat
  dsimp only
  rw [hl, reply_up (by exact hup), htold]
  exact ownerReturned_off (hbatch ▸ hb)

/-- Settles O21: the lease is `Lease.beat`, and nothing follows the reply and the notice. -/
theorem heartbeatMakesTheLeaseLive : Obligations.HeartbeatMakesTheLeaseLive := by
  intro s n id period miss fast ht
  refine ⟨fun hbad => next_whenUp ht ?_, fun hperiod hfast hb m span l data hm hspan hl hdata => next_whenUp ht ?_⟩
  · by_cases hfast : 1 < fast.toNat
    · rw [switchOf_none hfast]
      exact reply_up ht.2 _ _ _ _
    · rw [switchOf_some (Nat.not_lt.1 hfast)]
      dsimp only
      rw [if_pos (hbad.resolve_right hfast)]
      exact reply_up ht.2 _ _ _ _
  · rw [switchOf_some hfast]
    dsimp only
    rw [if_neg hperiod]
    have hbeat : (s.lease n).beat s.now s.time.source period.toNat miss.toNat (decide (fast = 1)) = l := by
      subst hm hspan hl
      rfl
    refine heartbeat_plain ht.2 hb id _ _ _ hbeat ?_
    rw [← hdata, ← hbeat, tellReturned_beat]
    subst hm hspan
    rfl

/-! ### LEAVE, lapse and expiry (R32, R33, R36) -/

theorem leave_live {s : State} {n : Node} (h : s.live n = true) : leave n s = leaveLive n s := if_pos h

theorem leave_notLive {s : State} {n : Node} (h : s.live n = false) :
    leave n s = s.setLease n (s.lease n).leaveEnded := if_neg (Bool.eq_false_iff.1 h)

/-- A LEAVE on a port that takes it is answered, and then takes effect. -/
theorem exec_leave {s t : State} {n : Node} (ht : s.Takes n) {id : BitVec 16}
    (h : leave n (s.answered n id 0x11 .done (u8 (leaseCode (s.lease n).state))) = t) :
    exec (.leave n id) s = .next t := by
  refine next_whenUp ht ?_
  rw [reply_up ht.2, h]

theorem exec_leave_notLive {s : State} {n : Node} (ht : s.Takes n) (h : s.live n = false) (id : BitVec 16) :
    exec (.leave n id) s = .next ((s.answered n id 0x11 .done (u8 (leaseCode (s.lease n).state))).setLease n
      (s.lease n).leaveEnded) :=
  exec_leave ht (leave_notLive (by exact h))

/-- R36: a LEAVE of a live lease from which no claim follows. -/
theorem leaveLive_plain {s : State} {n : Node} (hb : (s.batch n).state ≠ .gathering)
    (hs : s.sweep.runsFor n = false) (h : s.time.grace = true ∨ s.live n.partner = false) :
    leaveLive n s = s.hasLeft n := by
  rw [leaveLive_quiet hb hs]
  rcases h with hg | hp
  · exact if_pos hg
  · rw [trigger_off (s := s.hasLeft n) ((live_after s n _ none _).trans hp), ite_self]

theorem lapse_granted {s : State} {n : Node} {g : Grant} {e : Tick} (hg : (s.lease n).grant = some g)
    (he : (s.lease n).expiry = some e) : lapse n s =
      (s.setLease n { s.lease n with state := .lapsing, lapse := none }).raise n.partner none
        (.partnerLapsing e g.grade g.miss) := by
  unfold lapse
  dsimp only
  rw [hg, he]

/-- R36 item 2: from EXPIRED the node that left stays gone, by R25 once the grace has ended. -/
theorem gone_leaveEnded {s : State} {n : Node} (h : (s.lease n).state = .expired) :
    (s.setLease n (s.lease n).leaveEnded).staysGone n = true ∧
      (s.setLease n (s.lease n).leaveEnded).gone n = !s.time.grace :=
  ⟨staysGone_of_leaveEnded h, by simp [State.gone]⟩

/-- Settles O23: a LEAVE by whether the lease is live, and each deadline by whether it is due. -/
theorem leaveLapseAndExpiryTellThePartner : Obligations.LeaveLapseAndExpiryTellThePartner := by
  refine ⟨fun s n id ht t htold => ?_, fun s n g e hr hg he => ⟨fun hstate hdue => ?_, fun hdue => ?_,
    fun hl hdue hb hs hp => ?_, fun hdue => ?_⟩⟩
  · subst htold
    refine ⟨fun hl => exec_leave_notLive ht hl id, fun hexpired u hu => ?_, fun hl hb hs hquiet => ?_⟩
    · rw [exec_leave_notLive ht (by simp [State.live, hexpired])] at hu
      cases hu
      exact gone_leaveEnded (s := s.answered n id _ _ _) hexpired
    · exact exec_leave ht ((leave_live (by exact hl)).trans (leaveLive_plain (by exact hb) (by exact hs)
        (by exact hquiet)))
  · exact next_due hr (by simp [hstate, hdue]) (lapse_granted hg he)
  · exact next_notDue hr (by simp [hdue])
  · refine next_due hr (by simp [hl, he, hdue]) ((expire_plain hb hs hp).trans ?_)
    rw [hg]
    rfl
  · exact next_notDue hr (by simp [he, hdue])

/-! ### RESUME, training and link loss (R150, R153, R154) -/

theorem resume_halted {s : State} {n : Node} (h : (s.port n).state = .halted) (id : BitVec 16) :
    resume n id s = (s.setPort n { s.port n with state := .up }).answered n id 0x02 .done
      (lastFaultItem (s.port n).lastFault) := by
  unfold resume
  dsimp only
  rw [h]
  exact reply_up (by rw [State.setPort_port_same]) _ _ _ _

theorem resume_up {s : State} {n : Node} (h : (s.port n).state = .up) (id : BitVec 16) :
    resume n id s = s.answered n id 0x02 .wrongState (lastFaultItem (s.port n).lastFault) := by
  unfold resume
  dsimp only
  rw [h]
  exact reply_up h _ _ _ _

theorem fastExpire_off {s : State} {n : Node} (h : (s.lease n).fastExpiry = false ∨ s.live n = false) :
    fastExpire n s = s := if_neg (by rcases h with h | h <;> simp [h])

theorem fastExpire_on {s : State} {n : Node} (hf : (s.lease n).fastExpiry = true) (hl : s.live n = true) :
    fastExpire n s = expire n s := if_pos (by simp [hf, hl])

/-- A link loss of a node that runs no sweep, with a fast expiry or without. -/
theorem exec_nodeLinkLoss {s t : State} {n : Node} (hr : s.running = true) (hup : (s.port n).state ≠ .down)
    (ht : fastExpire n (s.setPort n (s.port n).lose) = t) (hs : t.sweep.runsFor n = false) :
    exec (.nodeLinkLoss n) s = .next t := by
  refine congrArg Host.Outcome.next ((whenTrue_on (by simp [State.receives, hr, hup])).trans ?_)
  unfold linkLost
  rw [ht, endSweepOf_off _ hs]

/-- Settles O16, by the state of the port and, for a link loss, of the lease. -/
theorem portsReopenTrainAndClose : Obligations.PortsReopenTrainAndClose := by
  refine ⟨fun s n id hr => ⟨fun h => ?_, fun h => ?_⟩, fun s n hr => ⟨fun h => ?_, fun hup hs p hp =>
    ⟨fun hslow => ?_, fun hf hl hb hpartner => ?_⟩⟩⟩
  · exact next_whenRunning hr (resume_halted h id)
  · exact next_whenRunning hr (resume_up h id)
  · exact next_due hr (by simp [h]) rfl
  · subst hp
    exact exec_nodeLinkLoss hr hup (fastExpire_off (by exact hslow)) hs
  · subst hp
    exact exec_nodeLinkLoss hr hup ((fastExpire_on (by exact hf) (by exact hl)).trans
      (expire_plain (by exact hb) (by exact hs) (by exact hpartner))) hs

end Sys2Proof.Machine
end

section
/-! The Forwarding Engines along every step (R5, R43 to R52), and the fence (R65, R104). -/

namespace Sys2Proof.Machine

/-! ### Every step keeps the engines -/

theorem EnginesOk.of_eq {s t : State} (he : t.engines = s.engines) (hs : t.slots = s.slots) (h : EnginesOk s) :
    EnginesOk t := by
  intro i
  unfold State.engine State.slot
  rw [he, hs]
  exact h i

/-- R2, R43: at start-up every engine is empty and every quota is 16. -/
theorem startUp_enginesOk (s : State) : EnginesOk (startUp s) := by
  obtain ⟨-, -, hengine, -⟩ := initialRecords_ok
  refine fun i => ⟨startUp_engine s i ▸ hengine, fun n => ?_⟩
  rw [startUp_slot]
  cases n <;> exact Nat.le_of_ble_eq_true rfl

/-- R160: what becomes of a write in progress leaves engines and slots alone. -/
theorem resolveWrite_engines_slots (s : State) :
    s.resolveWrite.engines = s.engines ∧ s.resolveWrite.slots = s.slots := by
  unfold State.resolveWrite
  split <;> exact ⟨rfl, rfl⟩

theorem assertReset_enginesOk {s : State} (h : EnginesOk s) : EnginesOk (assertReset s) := by
  obtain ⟨he, hs⟩ := resolveWrite_engines_slots (s.setResetInput true)
  unfold assertReset
  dsimp only
  split
  · exact h.of_eq he hs
  · exact h.of_eq rfl rfl

theorem releaseReset_enginesOk {s : State} (h : EnginesOk s) : EnginesOk (releaseReset s) := by
  unfold releaseReset
  dsimp only
  split
  · exact startUp_enginesOk _
  · exact h.of_eq rfl rfl

theorem turnOn_enginesOk (s : State) : EnginesOk (turnOn s) := by
  have hup := startUp_enginesOk { s with power := { s.power with powered := true } }
  unfold turnOn
  dsimp only
  split
  · exact hup.of_eq rfl rfl
  · exact hup

theorem turnOff_enginesOk {s : State} (h : EnginesOk s) : EnginesOk (turnOff s) := by
  obtain ⟨he, hs⟩ := resolveWrite_engines_slots s
  unfold turnOff
  split
  · exact h.of_eq he hs
  · exact h

theorem exec_enginesOk {c : Instr} {s t : State} (hx : exec c s = .next t) (h : EnginesOk s) : EnginesOk t := by
  cases hc : c.ofPower with
  | false => exact (exec_keeps hc hx).engines h
  | true =>
    cases c with
    | resetAssert => cases hx; exact assertReset_enginesOk h
    | resetRelease => cases hx; exact releaseReset_enginesOk h
    | powerOn => cases hx; exact turnOn_enginesOk s
    | powerFail => cases hx; exact turnOff_enginesOk h
    | _ => cases hc

theorem idle_enginesOk {s : State} (h : EnginesOk s) : EnginesOk (idle s) := by
  unfold idle whenRunning
  split <;> exact h.of_eq rfl rfl

/-- Settles O7: each command keeps the engines by the operations it is made of (`exec_keeps`), start-up
makes them anew, and the idle step does not touch them. -/
theorem stepKeepsEngines : Obligations.StepKeepsEngines := by
  intro s t hstep h
  unfold step at hstep
  split at hstep
  · cases hstep
    exact idle_enginesOk h
  · exact exec_enginesOk hstep (h.of_eq rfl rfl)

/-! ### The fence (R65, R104) -/

/-- R65 step 2: no entry is ACTIVE for the old owner after it. -/
theorem activeOf_orphan (x : Node) (t : TagEntry) : (t.orphan x).activeOf x = false := by
  obtain ⟨k, role⟩ := t
  cases role with
  | active c d => by_cases hc : c.node = x <;> simp [TagEntry.orphan, TagEntry.activeOf, hc]
  | orphaned c d => rfl
  | probe b => rfl

/-- The entries of the partner stand. -/
theorem activeOf_partner_orphan (x : Node) (t : TagEntry) :
    (t.orphan x).activeOf x.partner = t.activeOf x.partner := by
  obtain ⟨k, role⟩ := t
  cases role with
  | active c d => by_cases hc : c.node = x <;> simp [TagEntry.orphan, TagEntry.activeOf, hc]
  | orphaned c d => rfl
  | probe b => rfl

/-- The ORPHANED entries are those that were, and the old owner's ACTIVE ones. -/
theorem isOrphan_orphan (x : Node) (t : TagEntry) : (t.orphan x).isOrphan = (t.isOrphan || t.activeOf x) := by
  obtain ⟨k, role⟩ := t
  cases role with
  | active c d => by_cases hc : c.node = x <;> simp [TagEntry.orphan, TagEntry.activeOf, TagEntry.isOrphan, hc]
  | orphaned c d => rfl
  | probe b => rfl

theorem not_orphan_and_active (x : Node) (t : TagEntry) : ¬(t.isOrphan = true ∧ t.activeOf x = true) := by
  obtain ⟨k, role⟩ := t
  cases role <;> simp [TagEntry.isOrphan, TagEntry.activeOf]

theorem orphans_fenced (x : Node) (ts : List TagEntry) :
    ((ts.map (TagEntry.orphan x)).filter TagEntry.isOrphan).length =
      (ts.filter TagEntry.isOrphan).length + (ts.filter (TagEntry.activeOf x)).length := by
  induction ts with
  | nil => rfl
  | cons t ts ih =>
    have hboth := not_orphan_and_active x t
    rw [List.map_cons, List.filter_cons, List.filter_cons, List.filter_cons, isOrphan_orphan]
    cases ho : t.isOrphan <;> cases ha : t.activeOf x <;> simp_all <;> omega

/-- R104: one AT_DRIVE entry for each ACTIVE entry of the old owner. -/
theorem atDriveEntries_length (x : Node) (ts : List TagEntry) :
    (atDriveEntries x ts).length = (ts.filter (TagEntry.activeOf x)).length := by
  rw [atDriveEntries, List.length_filterMap_eq_countP, List.countP_eq_length_filter]
  congr 1
  refine List.filter_congr fun t _ => ?_
  obtain ⟨k, role⟩ := t
  cases role with
  | active c d => by_cases hc : c.node = x <;> simp [TagEntry.activeOf, hc]
  | orphaned c d => rfl
  | probe b => rfl

/-- R65 step 1: the waiting entries that stay are the partner's. -/
theorem fence_waiting (x y : Node) (cs : List Command) :
    (cs.filter (fun c => decide (c.node ≠ x))).filter (fun c => decide (c.node = y)) =
      if y = x then [] else cs.filter (fun c => decide (c.node = y)) := by
  rw [List.filter_filter]
  split
  · subst y
    simp
  · refine List.filter_congr fun c _ => ?_
    by_cases hc : c.node = y <;> simp [*]

/-- Settles O13: the waiting list by `fence_waiting`, the tag table entry by entry. -/
theorem fenceLeavesNothingOutstanding : Obligations.FenceLeavesNothingOutstanding := by
  intro e x
  refine ⟨?_, ?_, orphans_fenced x e.tags, List.length_map _, ?_⟩
  · simp [Engine.outstanding, Engine.fence, activeOf_orphan]
  · simp only [Engine.outstanding, Engine.fence, fence_waiting, Node.partner_ne, if_false, ← List.countP_eq_length_filter,
      List.countP_map, Function.comp_def, activeOf_partner_orphan]
  · rw [Engine.fenceEntries, List.length_append, atDriveEntries_length, waitingEntries, List.length_map,
      Engine.outstanding, Nat.add_comm]

end Sys2Proof.Machine
end

section
/-! The nine admission checks (R47 to R53), TRIP and SHARE windows (R73, R74), and what a CMD changes. -/

namespace Sys2Proof.Machine

/-! ### The arbiter of a bay with no tag FREE, and of the other bays -/

/-- R55 to R57: with no tag FREE the arbiter dispatches nothing. -/
theorem arbiter_full {s : State} {i : Slot} (h : lowestFree (s.engine i).tags = none) : s.arbiter i = s := by
  have hfree : freeTags (s.engine i).tags = [] := by
    rw [lowestFree_eq] at h
    simpa using h
  have hprobe : s.serveProbe i = s := by
    unfold State.serveProbe
    dsimp only
    rw [h]
    split <;> rfl
  unfold State.arbiter
  rw [hprobe]
  by_cases hr : (s.bay i).state = .ready
  · rw [serveWaiting_ready hr, hfree]
    simp only [List.length_nil, List.drop_zero, List.zip_nil_right, List.map_nil, List.append_nil, toDrive_nil]
    exact setEngine_self s i
  · exact serveWaiting_closed hr

theorem arbiter_engine_other {s : State} {i j : Slot} (h : j ≠ i) : (s.arbiter i).engine j = s.engine j :=
  (BayStands.arbiter h s).engine

/-- R53, R56: a command that joins the empty list of a READY bay goes to the lowest FREE tag at once. -/
theorem enqueue_dispatches {s : State} {i : Slot} {c : Command} {d : DriveTag} (hr : (s.bay i).state = .ready)
    (hq : s.Quiet i) (hd : lowestFree (s.engine i).tags = some d) :
    (s.setEngine i { s.engine i with waiting := (s.engine i).waiting ++ [c] }).arbiter i =
      (s.setEngine i { s.engine i with tags := (s.engine i).tags ++ [⟨d, .active c s.now⟩] }).toDrive i
        [.command d c.kind c.lba c.count] := by
  obtain ⟨hwaiting, hprobe⟩ := hq
  refine (arbiter_one (c := c) (by exact hr) (by simpa using hprobe) (by simp [hwaiting])).trans ?_
  rw [State.setEngine_engine_same]
  dsimp only
  rw [hd]
  dsimp only
  rw [State.setEngine_setEngine, ← hwaiting]
  rfl

/-- R56: with no tag FREE it waits at the tail. -/
theorem enqueue_waits {s : State} {i : Slot} (c : Command) (hd : lowestFree (s.engine i).tags = none) :
    (s.setEngine i { s.engine i with waiting := (s.engine i).waiting ++ [c] }).arbiter i =
      s.setEngine i { s.engine i with waiting := (s.engine i).waiting ++ [c] } :=
  arbiter_full (by simpa using hd)

/-! ### The checks one by one (R48 to R52) -/

/-- R48, R49: the bay is READY, the lease live, and the phase lets the sender in. -/
structure PassesEarly (s : State) (n : Node) (i : Slot) : Prop where
  bay : (s.bay i).state = .ready
  live : s.live n = true
  phase : phaseRefusal (s.slot i) n = none

theorem phaseRefusal_none_iff (r : SlotRec) (n : Node) :
    phaseRefusal r n = none ↔ r.phase = .unowned ∨ r.phase = .owned ∨ r.phase = .claimed := by
  unfold phaseRefusal
  cases r.phase with
  | draining => by_cases ho : r.owner = some n <;> simp [ho]
  | _ => simp

theorem bayRefusal_none_iff (b : BayState) : bayRefusal b = none ↔ b = .ready := by cases b <;> simp [bayRefusal]

section
variable {s : State} {n : Node} {i : Slot}

theorem admission_bay {st : CplStatus} (h : bayRefusal (s.bay i).state = some st) (tag : Byte)
    (kind : Option Kind) (gen : Gen) (lba : Lba) (count : BitVec 16) :
    admission s n i tag kind gen lba count = .refuse st 0 := by
  unfold admission
  rw [h]

theorem admission_notLive (hb : (s.bay i).state = .ready) (hl : s.live n = false) (tag : Byte)
    (kind : Option Kind) (gen : Gen) (lba : Lba) (count : BitVec 16) :
    admission s n i tag kind gen lba count = .refuse .noLease 0 := by
  unfold admission
  rw [hb, hl]
  rfl

theorem admission_phase {st : CplStatus} (hb : (s.bay i).state = .ready) (hl : s.live n = true)
    (hp : phaseRefusal (s.slot i) n = some st) (tag : Byte) (kind : Option Kind) (gen : Gen) (lba : Lba)
    (count : BitVec 16) : admission s n i tag kind gen lba count = .refuse st 0 := by
  unfold admission
  rw [hb, hl]
  dsimp only [bayRefusal]
  rw [hp]
  rfl

/-- R50, R74: check 4 and 5 for the owner. -/
theorem admission_owner (h : PassesEarly s n i) (ho : (s.slot i).owner = some n) (tag : Byte)
    (kind : Option Kind) (gen : Gen) (lba : Lba) (count : BitVec 16) :
    admission s n i tag kind gen lba count =
      match (if kind = some .write then tripWindow s i lba count else none) with
      | some k => .trap k
      | none => if gen ≠ (s.slot i).generation then .refuse .staleGeneration 0
          else lateChecks s n i tag kind lba count none := by
  unfold admission
  rw [h.bay, h.live]
  dsimp only [bayRefusal]
  rw [h.phase]
  exact if_pos ho

/-- R50, R73: check 4 and 5 for any other sender. -/
theorem admission_other (h : PassesEarly s n i) (ho : (s.slot i).owner ≠ some n) (tag : Byte)
    (kind : Option Kind) (gen : Gen) (lba : Lba) (count : BitVec 16) :
    admission s n i tag kind gen lba count =
      match shareWindow s i kind lba count with
      | none => .refuse .notOwner 0
      | some k => if gen ≠ 0 ∧ gen ≠ (s.slot i).generation then .refuse .staleGeneration 0
          else lateChecks s n i tag kind lba count (some k) := by
  unfold admission
  rw [h.bay, h.live]
  dsimp only [bayRefusal]
  rw [h.phase]
  exact if_neg ho

/-- An owner's command of the right generation that no TRIP window catches comes to the last four checks. -/
theorem admission_owner_late (h : PassesEarly s n i) (ho : (s.slot i).owner = some n) {kind : Option Kind}
    {lba : Lba} {count : BitVec 16} (ht : kind = some .write → tripWindow s i lba count = none) (tag : Byte) :
    admission s n i tag kind (s.slot i).generation lba count = lateChecks s n i tag kind lba count none := by
  have htrip : (if kind = some .write then tripWindow s i lba count else none) = none := by
    split
    · exact ht ‹_›
    · rfl
  rw [admission_owner h ho, htrip]
  exact if_neg (not_not_intro rfl)

/-- A command that a SHARE window lets in comes to the last four checks through that window. -/
theorem admission_share_late (h : PassesEarly s n i) (ho : (s.slot i).owner ≠ some n) {kind : Option Kind}
    {gen : Gen} {lba : Lba} {count : BitVec 16} {w : Fin 4} (hw : shareWindow s i kind lba count = some w)
    (hg : gen = 0 ∨ gen = (s.slot i).generation) (tag : Byte) :
    admission s n i tag kind gen lba count = lateChecks s n i tag kind lba count (some w) := by
  rw [admission_other h ho, hw]
  exact if_neg fun hstale => hg.elim hstale.1 hstale.2

/-- R51: kind, count and range. -/
theorem commandValid_iff (cap : Nat) (k : Kind) (lba : Lba) (count : BitVec 16) :
    commandValid cap k lba count = true ↔
      k = .flush ∧ count = 0 ∨ k ≠ .flush ∧ count ≠ 0 ∧ lba.toNat + count.toNat ≤ cap := by
  cases k <;> simp [commandValid]

/-- R51, R52: checks 6 to 9 of a command with a kind, at a bay of known capacity. -/
theorem lateChecks_kind {cap : Lba} (hcap : (s.bay i).capacity = some cap) (tag : Byte) (k : Kind) (lba : Lba)
    (count : BitVec 16) (w : Option (Fin 4)) : lateChecks s n i tag (some k) lba count w =
      if !commandValid cap.toNat k lba count then .refuse .badCommand 0
      else if tagOutstanding (s.engine i) n tag then .refuse .tagInUse 0
      else if (s.slot i).quota.get n ≤ (s.engine i).outstanding n then
        .refuse .quotaFull (BitVec.ofNat 16 ((s.slot i).quota.get n))
      else if 16 ≤ (s.engine i).waiting.length then .refuse .queueFull 0
      else .accept k w := by
  unfold lateChecks
  rw [hcap]
  rfl

theorem lateChecks_passed {cap : Lba} (hcap : (s.bay i).capacity = some cap) {tag : Byte} {k : Kind} {lba : Lba}
    {count : BitVec 16} (hflush : k = .flush → count = 0)
    (hrange : k ≠ .flush → count ≠ 0 ∧ lba.toNat + count.toNat ≤ cap.toNat) (h : Admissible s n i tag)
    (w : Option (Fin 4)) : lateChecks s n i tag (some k) lba count w = .accept k w := by
  have hvalid : commandValid cap.toNat k lba count = true := by
    rw [commandValid_iff]
    by_cases hk : k = .flush
    · exact .inl ⟨hk, hflush hk⟩
    · exact .inr ⟨hk, hrange hk⟩
  rw [lateChecks_kind hcap, hvalid, h.tagFree]
  exact (if_neg (Nat.not_le.2 h.quota)).trans (if_neg (Nat.not_le.2 h.place))

end

/-! ### What a CMD comes to -/

theorem command_refuse {s : State} {n : Node} {i : Slot} {tag kind : Byte} {gen : Gen} {lba : Lba}
    {count : BitVec 16} {st : CplStatus} {d : BitVec 16} (hup : (s.port n).state = .up)
    (h : admission s n i tag (kindOf kind) gen lba count = .refuse st d) :
    command n i tag kind gen lba count s = s.refused n i tag st d := by
  unfold command
  rw [h]
  exact cpl_up hup i tag st d

theorem command_accept {s : State} {n : Node} {i : Slot} {tag kind : Byte} {gen : Gen} {lba : Lba}
    {count : BitVec 16} {k : Kind} {w : Option (Fin 4)}
    (h : admission s n i tag (kindOf kind) gen lba count = .accept k w) :
    command n i tag kind gen lba count s =
      (s.admitted i { node := n, tag := tag, kind := k, lba := lba, count := count } w).arbiter i := by
  unfold command
  rw [h]

theorem kindOf_kindCode (k : Kind) : kindOf (BitVec.ofNat 8 (kindCode k)) = some k := by cases k <;> rfl

/-- Settles O27: the checks pass (`lateChecks_passed`), and the arbiter serves the one command or none. -/
theorem ownerCommandIsDispatched : Obligations.OwnerCommandIsDispatched := by
  rintro s n i tag k lba count cap ht hb hcap hl ho hp htrip hflush hrange htag hquota hplace c rfl
  have hearly : PassesEarly s n i := ⟨hb, hl, (phaseRefusal_none_iff _ n).2 (.inr hp)⟩
  have hadm : admission s n i tag (kindOf (BitVec.ofNat 8 (kindCode k))) (s.slot i).generation lba count =
      .accept k none := by
    rw [kindOf_kindCode, admission_owner_late hearly ho (fun hk => htrip (Option.some.inj hk))]
    exact lateChecks_passed hcap hflush hrange ⟨htag, hquota, hplace⟩ none
  exact ⟨fun d hq hd => next_whenUp ht ((command_accept hadm).trans (enqueue_dispatches hb hq hd)),
    fun hd => next_whenUp ht ((command_accept hadm).trans (enqueue_waits _ hd))⟩

/-- Settles O28: each clause names the check that refuses. -/
theorem admissionChecksRefuseInOrder : Obligations.AdmissionChecksRefuseInOrder := by
  refine ⟨fun s n i tag kind gen lba count ht answer hanswer => ?_,
    fun s n i tag kind lba count cap ht hb hcap hl hp ho htrip answer hanswer => ?_⟩
  · have refuse : ∀ st, admission s n i tag (kindOf kind) gen lba count = .refuse st 0 → answer st :=
      fun st h => (hanswer st).2 (next_whenUp ht (command_refuse ht.2 h))
    have bay : ∀ {b st}, (s.bay i).state = b → bayRefusal b = some st → answer st :=
      fun hb hst => refuse _ (admission_bay (hb ▸ hst) tag _ gen lba count)
    refine ⟨fun hb => bay hb rfl, fun hb => hb.elim (fun hb => bay hb rfl) (fun hb => bay hb rfl),
      fun hb => bay hb rfl, fun hb => bay hb rfl, fun hb => bay hb rfl, fun hb =>
      ⟨fun hl => refuse _ (admission_notLive hb hl tag _ gen lba count), fun hl => ?_⟩⟩
    have phase : ∀ {st}, phaseRefusal (s.slot i) n = some st → answer st :=
      fun hst => refuse _ (admission_phase hb hl hst tag _ gen lba count)
    refine ⟨fun hp ho => phase (by simp [phaseRefusal, hp, ho]), fun hp ho => phase (by simp [phaseRefusal, hp, ho]),
      fun hp => phase (by rcases hp with hp | hp <;> simp [phaseRefusal, hp]), fun hp => ?_⟩
    have hearly : PassesEarly s n i := ⟨hb, hl, (phaseRefusal_none_iff _ n).2 hp⟩
    refine ⟨fun ho hw => refuse _ ?_, fun ho ⟨k, hw⟩ h0 hg => refuse _ ?_, fun ho htrip hg => refuse _ ?_⟩
    · rw [admission_other hearly ho, hw]
    · rw [admission_other hearly ho, hw]
      exact if_pos ⟨h0, hg⟩
    · have hnone : (if kindOf kind = some .write then tripWindow s i lba count else none) = none := by
        split
        · exact htrip ‹_›
        · rfl
      rw [admission_owner hearly ho, hnone]
      exact if_pos hg
  · have hearly : PassesEarly s n i := ⟨hb, hl, (phaseRefusal_none_iff _ n).2 (.inr hp)⟩
    have refuse : ∀ st d, lateChecks s n i tag (kindOf kind) lba count none = .refuse st d → answer st d :=
      fun st d h => (hanswer st d).2 (next_whenUp ht (command_refuse ht.2
        ((admission_owner_late hearly ho htrip tag).trans h)))
    cases hk : kindOf kind with
    | none => exact ⟨fun _ => refuse _ _ (by rw [hk]; rfl), by simp, by simp, by simp⟩
    | some k =>
      have late := lateChecks_kind (n := n) hcap tag k lba count none
      have invalid : ¬commandValid cap.toNat k lba count = true → answer .badCommand 0 := fun hv =>
        refuse _ _ (by rw [hk, late, if_pos (by simpa using hv)])
      refine ⟨by simp, fun hf hc => invalid ?_, fun _ hf hc => invalid ?_, fun hvalid => ?_⟩
      · cases hf
        simpa [commandValid_iff] using hc
      · rw [commandValid_iff]
        rintro (⟨rfl, -⟩ | ⟨-, hc0, hle⟩)
        · exact hf rfl
        · rcases hc with hc | hc
          · exact hc0 hc
          · omega
      · have hv : commandValid cap.toNat k lba count = true := by
          rw [commandValid_iff]
          rcases hvalid with ⟨hf, hc⟩ | ⟨-, hf, hc⟩
          · exact .inl ⟨Option.some.inj hf, hc⟩
          · exact .inr ⟨fun h => hf (congrArg some h), hc⟩
        refine ⟨fun htag => refuse _ _ ?_, fun htag => ⟨fun hquota => refuse _ _ ?_, fun hquota hplace => refuse _ _ ?_⟩⟩
        · rw [hk, late, hv, htag]
          rfl
        · rw [hk, late, hv, htag]
          exact if_pos hquota
        · rw [hk, late, hv, htag]
          exact (if_neg (Nat.not_le.2 hquota)).trans (if_pos hplace)

end Sys2Proof.Machine
end

section
/-! TRIP and SHARE windows (R73, R74), and what a CMD changes (R47 to R53). -/

namespace Sys2Proof.Machine

/-! ### The lowest window -/

/-- The first of the four windows that passes a test is the lowest that does. -/
theorem allWindows_find_lowest {p : Fin 4 → Bool} {w : Fin 4} (hw : p w = true) (hlow : ∀ v, v < w → ¬p v = true) :
    allWindows.find? p = some w :=
  (List.find?_ofFn_eq_some_of_injective (f := id) Function.injective_id).2 ⟨hw, hlow⟩

theorem mem_allWindows (k : Fin 4) : k ∈ allWindows := by
  revert k
  decide

/-- R73: a SHARE window by its kind, with the blocks of a command other than a FLUSH inside it. -/
theorem shareAdmits_iff (a : ActiveWindow) (k : Kind) (lba : Lba) (count : BitVec 16) :
    shareAdmits a (some k) lba count = true ↔ k = .flush ∧ a.kind = .shareRw ∨
      k ≠ .flush ∧ (a.kind = .shareRw ∨ a.kind = .shareRead ∧ k ≠ .write) ∧
        contains a.first a.last lba count = true := by
  cases k <;> cases hk : a.kind <;> simp [shareAdmits, hk]

theorem contains_iff (first last lba : Lba) (count : BitVec 16) : contains first last lba count = true ↔
    count ≠ 0 ∧ first.toNat ≤ lba.toNat ∧ lba.toNat + count.toNat ≤ last.toNat + 1 := by
  have hcount : 0 < count.toNat ↔ count ≠ 0 := by
    rw [Nat.pos_iff_ne_zero, Ne, Ne, ← BitVec.toNat_inj]
    rfl
  simp [contains, hcount, and_assoc]

theorem shareWindow_some {s : State} {i : Slot} {kind : Option Kind} {lba : Lba} {count : BitVec 16} {w : Fin 4}
    (h : shareWindow s i kind lba count = some w) :
    ∃ a, (s.window w).active = some a ∧ a.slot = i ∧ shareAdmits a kind lba count = true := by
  have hw := allWindows_find_some h
  cases ha : (s.window w).active with
  | none => simp [ha] at hw
  | some a =>
    simp only [ha, Bool.and_eq_true, decide_eq_true_eq] at hw
    exact ⟨a, rfl, hw⟩

/-- R73: the lowest SHARE window of the slot that lets the command in. -/
theorem shareWindow_lowest {s : State} {i : Slot} {kind : Option Kind} {lba : Lba} {count : BitVec 16} {w : Fin 4}
    {lets : Fin 4 → Prop} (hlets : ∀ v, lets v ↔
      ∃ a, (s.window v).active = some a ∧ a.slot = i ∧ shareAdmits a kind lba count = true)
    (hw : lets w) (hlow : ∀ v, v < w → ¬lets v) : shareWindow s i kind lba count = some w := by
  have htest : ∀ v, (match (s.window v).active with
      | some a => decide (a.slot = i) && shareAdmits a kind lba count
      | none => false) = true ↔ lets v := by
    intro v
    rw [hlets]
    cases ha : (s.window v).active <;> simp
  exact allWindows_find_lowest ((htest w).2 hw) fun v hv h => hlow v hv ((htest v).1 h)

/-- R74: a WRITE that no TRIP window of the slot catches lies outside each of them. -/
theorem tripWindow_none {s : State} {i : Slot} {lba : Lba} {count : BitVec 16}
    (h : tripWindow s i lba count = none) (hc : count ≠ 0) {k : Fin 4} {a : ActiveWindow}
    (ha : (s.window k).active = some a) (hi : a.slot = i) (ht : a.kind = .trip) :
    lba.toNat + count.toNat ≤ a.first.toNat ∨ a.last.toNat < lba.toNat := by
  have hno := List.find?_eq_none.1 h k (mem_allWindows k)
  have hpos : 0 < count.toNat := Nat.pos_of_ne_zero fun h0 => hc (BitVec.eq_of_toNat_eq h0)
  simp only [ha, hi, ht, overlaps, hpos, decide_true, Bool.true_and, Bool.and_eq_true, decide_eq_true_eq] at hno
  omega

/-! ### What an admitted CMD had the right to -/

/-- R47 to R52: everything the nine checks have found of an admitted command. -/
structure HadTheRight (s : State) (n : Node) (i : Slot) (gen : Gen) (lba : Lba) (count : BitVec 16) (k : Kind)
    (w : Option (Fin 4)) : Prop where
  early : PassesEarly s n i
  quota : (s.engine i).outstanding n < (s.slot i).quota.get n
  counted : k = .flush ∨ count ≠ 0
  gate : (s.slot i).owner = some n ∧ gen = (s.slot i).generation ∧
      (k = .write → tripWindow s i lba count = none) ∨
    (s.slot i).owner ≠ some n ∧ (gen = 0 ∨ gen = (s.slot i).generation) ∧
      ∃ j, w = some j ∧ shareWindow s i (some k) lba count = some j

/-- Checks 6 to 9 accept a command of a kind, which covers a block unless it is a FLUSH (R51). -/
theorem lateChecks_accept_kind {s : State} {n : Node} {i : Slot} {tag : Byte} {kind : Option Kind} {lba : Lba}
    {count : BitVec 16} {window w : Option (Fin 4)} {k : Kind}
    (h : lateChecks s n i tag kind lba count window = .accept k w) : kind = some k ∧ (k = .flush ∨ count ≠ 0) := by
  unfold lateChecks at h
  dsimp only at h
  cases kind with
  | none => cases h
  | some j =>
    dsimp only at h
    split at h
    · cases h
    · rename_i hvalid
      have hkind : j = k := by
        repeat' split at h
        all_goals cases h
        rfl
      subst hkind
      simp only [Bool.not_eq_true', Bool.not_eq_false, commandValid_iff] at hvalid
      exact ⟨rfl, hvalid.imp And.left fun hv => hv.2.1⟩

theorem admission_accept {s : State} {n : Node} {i : Slot} {tag : Byte} {kind : Option Kind} {gen : Gen} {lba : Lba}
    {count : BitVec 16} {k : Kind} {w : Option (Fin 4)}
    (h : admission s n i tag kind gen lba count = .accept k w) :
    kind = some k ∧ HadTheRight s n i gen lba count k w := by
  cases hb : bayRefusal (s.bay i).state with
  | some st => rw [admission_bay hb] at h; cases h
  | none =>
    have hready := (bayRefusal_none_iff _).1 hb
    cases hl : s.live n with
    | false => rw [admission_notLive hready hl] at h; cases h
    | true =>
      cases hp : phaseRefusal (s.slot i) n with
      | some st => rw [admission_phase hready hl hp] at h; cases h
      | none =>
        have hearly : PassesEarly s n i := ⟨hready, hl, hp⟩
        by_cases ho : (s.slot i).owner = some n
        · rw [admission_owner hearly ho] at h
          split at h
          · cases h
          · rename_i htrip
            split at h
            · cases h
            · rename_i hgen
              obtain ⟨hadm, -⟩ := lateChecks_accept h
              obtain ⟨rfl, hcount⟩ := lateChecks_accept_kind h
              exact ⟨rfl, hearly, hadm.quota, hcount, .inl ⟨ho, not_not.1 hgen, fun hw => by
                rwa [if_pos (congrArg some hw)] at htrip⟩⟩
        · rw [admission_other hearly ho] at h
          split at h
          · cases h
          · rename_i j hj
            split at h
            · cases h
            · rename_i hgen
              obtain ⟨hadm, rfl⟩ := lateChecks_accept h
              obtain ⟨rfl, hcount⟩ := lateChecks_accept_kind h
              exact ⟨rfl, hearly, hadm.quota, hcount, .inr ⟨ho, by tauto, j, rfl, hj⟩⟩

/-! ### What a CMD leaves as it is -/

theorem sendCpl_frame (s : State) (n : Node) (i : Slot) (tag : Byte) (st : CplStatus) (d : BitVec 16) :
    { s.sendCpl n i tag st d with ports := s.ports } = s := by
  unfold State.sendCpl
  dsimp only
  split <;> rfl

/-- R47, R53: a CMD touches an engine, windows, notices, ports, a drive link and the sweep at most. -/
theorem command_frame (n : Node) (i : Slot) (tag kind : Byte) (gen : Gen) (lba : Lba) (count : BitVec 16)
    (s : State) : { command n i tag kind gen lba count s with
      engines := s.engines, windows := s.windows, notices := s.notices, ports := s.ports
      driveOut := s.driveOut, sweep := s.sweep } = s := by
  unfold command
  split
  · rename_i st d _
    exact (congrArg (fun u : State => { u with
      engines := s.engines, windows := s.windows, notices := s.notices, driveOut := s.driveOut, sweep := s.sweep })
      (sendCpl_frame s n i tag st d) :)
  · rename_i k _
    exact (congrArg (fun u : State => { u with
      engines := s.engines, windows := s.windows, notices := s.notices, driveOut := s.driveOut, sweep := s.sweep })
      (sendCpl_frame s n i tag .trapped (BitVec.ofNat 16 k.val)) :)
  · rename_i k w _
    refine (congrArg (fun u : State => { u with
      engines := s.engines, windows := s.windows, notices := s.notices, ports := s.ports, driveOut := s.driveOut
      sweep := s.sweep }) (arbiter_frame (s.admitted i ⟨n, tag, k, lba, count⟩ w) i) :).trans ?_
    cases w <;> rfl

theorem command_engine_other {i j : Slot} (hj : j ≠ i) (n : Node) (tag kind : Byte) (gen : Gen) (lba : Lba)
    (count : BitVec 16) (s : State) : (command n i tag kind gen lba count s).engine j = s.engine j := by
  unfold command
  split
  · exact (congrArg (fun u => State.engine u j) (sendCpl_frame s n i tag _ _) :)
  · exact (congrArg (fun u => State.engine u j) (sendCpl_frame s n i tag _ _) :)
  · rename_i k w _
    rw [arbiter_engine_other hj]
    cases w <;> exact (State.setEngine_engine s i _ j).trans (if_neg hj)

/-- A CMD that changes its engine was admitted. -/
theorem command_engine_changed {n : Node} {i : Slot} {tag kind : Byte} {gen : Gen} {lba : Lba} {count : BitVec 16}
    {s : State} (h : (command n i tag kind gen lba count s).engine i ≠ s.engine i) :
    ∃ k w, admission s n i tag (kindOf kind) gen lba count = .accept k w := by
  unfold command at h
  split at h
  · exact absurd (congrArg (fun u => State.engine u i) (sendCpl_frame s n i tag _ _) :) h
  · exact absurd (congrArg (fun u => State.engine u i) (sendCpl_frame s n i tag _ _) :) h
  · exact ⟨_, _, ‹_›⟩

/-- Settles O29: a changed engine means an admitted command (`command_engine_changed`), and the nine checks
found its right (`admission_accept`). -/
theorem admittedCommandHadTheRight : Obligations.AdmittedCommandHadTheRight := by
  intro s t n i tag kind gen lba count hexec
  have ht : t = whenUp n (command n i tag kind gen lba count) s := (Host.Outcome.next.inj hexec).symm
  by_cases htakes : s.Takes n
  case neg =>
    have hclosed : t = s := by
      rw [ht]
      exact if_neg (by simpa [State.Takes] using htakes)
    subst hclosed
    exact ⟨⟨rfl, rfl, rfl, rfl, rfl, rfl, rfl⟩, fun _ _ => rfl, fun h => absurd rfl h⟩
  rw [whenUp_takes htakes] at ht
  subst ht
  have hframe := command_frame n i tag kind gen lba count s
  refine ⟨⟨(congrArg State.slots hframe :), (congrArg State.leases hframe :), (congrArg State.bays hframe :),
    (congrArg State.batches hframe :), (congrArg State.reports hframe :), (congrArg State.store hframe :),
    (congrArg State.time hframe :)⟩, fun j hj => command_engine_other hj n tag kind gen lba count s, fun hne => ?_⟩
  obtain ⟨k, w, hadm⟩ := command_engine_changed hne
  obtain ⟨hkind, hright⟩ := admission_accept hadm
  refine ⟨htakes, hright.early.bay, hright.early.live, (phaseRefusal_none_iff _ n).1 hright.early.phase,
    hright.quota, ?_⟩
  rw [hkind]
  rcases hright.gate with ⟨ho, hg, htrip⟩ | ⟨ho, hg, j, -, hj⟩
  · refine .inl ⟨ho, hg, fun hw v a ha hi hk => ?_⟩
    cases hw
    exact tripWindow_none (htrip rfl) (hright.counted.resolve_left (by decide)) ha hi hk
  · obtain ⟨a, ha, hi, hshare⟩ := shareWindow_some hj
    refine .inr ⟨ho, hg, j, a, hj, ha, hi, ?_, fun hf => ?_⟩
    · rcases (shareAdmits_iff a k lba count).1 hshare with ⟨-, hrw⟩ | ⟨hf, hrw | ⟨hr, hw⟩, -⟩
      · exact .inl hrw
      · exact .inl hrw
      · refine .inr ⟨hr, ?_⟩
        cases k <;> simp_all
    · rcases (shareAdmits_iff a k lba count).1 hshare with ⟨rfl, -⟩ | ⟨-, -, hin⟩
      · exact absurd rfl hf
      · exact ((contains_iff _ _ _ _).1 hin).2

/-! ### TRIP and SHARE -/

theorem command_trap {s : State} {n : Node} {i : Slot} {tag kind : Byte} {gen : Gen} {lba : Lba}
    {count : BitVec 16} {w : Fin 4} (hup : (s.port n).state = .up)
    (h : admission s n i tag (kindOf kind) gen lba count = .trap w) :
    command n i tag kind gen lba count s =
      ((s.refused n i tag .trapped (BitVec.ofNat 16 w.val)).hit w).raiseBoth (some i)
        (.tripHit w tag count (lba.setWidth 32)) := by
  unfold command
  rw [h]
  dsimp only
  unfold State.trapped
  rw [cpl_up hup]

/-- Settles O30: the lowest window decides, and a command that a SHARE window lets in is served as an
owner's is. -/
theorem windowsTrapAndShare : Obligations.WindowsTrapAndShare := by
  rintro s n i tag gen lba count w ht hb hl hp u rfl
  have hearly : PassesEarly s n i := ⟨hb, hl, (phaseRefusal_none_iff _ n).2 (.inr hp)⟩
  refine ⟨fun ho htrip => next_whenUp ht ?_, ?_⟩
  · refine (command_trap ht.2 (w := w) ?_).trans rfl
    rw [admission_owner hearly ho, if_pos (show kindOf 2 = some .write from rfl), htrip]
  · rintro k c cap lets rfl hlets ho hw hlow hg hcap hflush hrange htag hquota hplace
    have hshare : shareWindow s i (some k) lba count = some w := by
      refine shareWindow_lowest (fun v => (hlets v).trans ?_) hw hlow
      refine exists_congr fun a => and_congr_right fun _ => and_congr_right fun _ => ?_
      rw [shareAdmits_iff, contains_iff]
      refine or_congr Iff.rfl (and_congr_right fun hf => and_congr_right fun _ => ?_)
      exact (and_iff_right (hrange hf).1).symm
    have hadm : admission s n i tag (kindOf (BitVec.ofNat 8 (kindCode k))) gen lba count = .accept k (some w) := by
      rw [kindOf_kindCode, admission_share_late hearly ho hshare hg]
      exact lateChecks_passed hcap hflush hrange ⟨htag, hquota, hplace⟩ (some w)
    exact ⟨fun d hq hd => next_whenUp ht ((command_accept hadm).trans
        (enqueue_dispatches (s := s.hit w) hb hq hd)),
      fun hd => next_whenUp ht ((command_accept hadm).trans (enqueue_waits (s := s.hit w) _ hd))⟩

end Sys2Proof.Machine
end

section
/-! The drive's completions and data frames (R58 to R62), and the arbiter at a freed tag (R55 to R57). -/

namespace Sys2Proof.Machine

/-! ### DATA (R61, R62) -/

theorem sendData_up {s : State} {n : Node} (h : (s.port n).state = .up) (i : Slot) (tag : Byte) (p : List Byte) :
    s.sendData n i tag p =
      s.setPort n { s.port n with unsent := (s.port n).unsent ++ [.data i tag p] } := if_pos h

theorem sendData_lost {s : State} {n : Node} (h : (s.port n).state ≠ .up) (i : Slot) (tag : Byte) (p : List Byte) :
    s.sendData n i tag p = s.setPort n { s.port n with droppedData := satInc (s.port n).droppedData } := if_neg h

theorem relayData_relayed {s : State} {n : Node} {i : Slot} {tag : Byte} {k : DriveTag}
    (h : writeTag (s.engine i) n tag = some k) (p : List Byte) :
    relayData n i tag p s = s.toDrive i [.data k p] := by
  unfold relayData
  rw [h]

theorem relayData_dropped {s : State} {n : Node} {i : Slot} {tag : Byte}
    (h : writeTag (s.engine i) n tag = none) (p : List Byte) :
    relayData n i tag p s = (s.setEngine i { s.engine i with
      droppedToDrive := satInc (s.engine i).droppedToDrive }).setPort n { s.port n with
        droppedData := satInc (s.port n).droppedData } := by
  unfold relayData
  rw [h]

theorem driveData_relayed {s : State} {i : Slot} {tag : Nat} {k : DriveTag} {c : Command} {d : Tick}
    (h : (s.engine i).entry tag = some ⟨k, .active c d⟩) (hk : c.kind = .read ∨ c.kind = .write) (p : List Byte) :
    driveData i tag p s = s.sendData c.node i c.tag p := by
  unfold driveData
  rw [h]
  exact if_pos hk

theorem driveData_dropped {s : State} {i : Slot} {tag : Nat}
    (h : ∀ k c d, (s.engine i).entry tag = some ⟨k, .active c d⟩ → c.kind ≠ .read ∧ c.kind ≠ .write)
    (p : List Byte) : driveData i tag p s =
      s.setEngine i { s.engine i with droppedFromDrive := satInc (s.engine i).droppedFromDrive } := by
  unfold driveData
  dsimp only
  split
  · rename_i k c d hentry
    obtain ⟨hread, hwrite⟩ := h k c d hentry
    exact if_neg (not_or.2 ⟨hread, hwrite⟩)
  · rfl

/-- Settles O31: both directions by the tag's entry, and the drive's frames by the state of the port. -/
theorem dataIsRelayedOrDropped : Obligations.DataIsRelayedOrDropped := by
  refine fun s i p => ⟨fun n tag ht => ⟨fun k hk => next_whenUp ht (relayData_relayed hk p),
      fun hk => next_whenUp ht (relayData_dropped hk p)⟩, fun tag hrun => ⟨fun k c d hentry hkind => ?_,
      fun hno => next_whenRunning hrun (driveData_dropped hno p)⟩⟩
  exact ⟨fun hup => next_whenRunning hrun ((driveData_relayed hentry hkind p).trans (sendData_up hup i c.tag p)),
    fun hup => next_whenRunning hrun ((driveData_relayed hentry hkind p).trans (sendData_lost hup i c.tag p))⟩

/-! ### Completions by the role of the tag (R58 to R60) -/

/-- R91: a slot drains on while an orphan is left. -/
theorem drainCheck_waits {s : State} {i : Slot} (h : (s.engine i).orphans ≠ 0) : drainCheck i s = s := by
  unfold drainCheck
  dsimp only
  split
  · exact if_neg fun hdone => h hdone.1
  · rfl

section
variable {s : State} {i : Slot} {tag : Nat} {k : DriveTag}

theorem driveCompletion_active {c : Command} {d : Tick} (h : (s.engine i).entry tag = some ⟨k, .active c d⟩)
    (hp : (s.slot i).phase ≠ .handing) (st : BitVec 16) (fp : Fingerprint) (cap : Lba) :
    driveCompletion i tag st fp cap s =
      ((s.sendCpl c.node i c.tag (if st = 0 then .good else .driveError) st).setEngine i
        ((s.engine i).free k)).arbiter i := by
  have hframe := sendCpl_frame s c.node i c.tag (if st = 0 then .good else .driveError) st
  unfold driveCompletion
  rw [h]
  dsimp only
  unfold completeActive
  dsimp only
  generalize s.sendCpl c.node i c.tag (if st = 0 then .good else .driveError) st = v at hframe ⊢
  have hengine : v.engine i = s.engine i := (congrArg (fun u => State.engine u i) hframe :)
  have hslot : v.slot i = s.slot i := (congrArg (fun u => State.slot u i) hframe :)
  rw [hengine, handing_off (by rw [State.setEngine_slot, hslot]; exact hp)]

/-- An ORPHANED entry that is not the last one (R59, R91). -/
theorem driveCompletion_orphaned {c : Command} {d : Tick}
    (h : (s.engine i).entry tag = some ⟨k, .orphaned c d⟩)
    (hother : ∃ e ∈ (s.engine i).tags, e.tag ≠ k ∧ e.isOrphan = true) (st : BitVec 16) (fp : Fingerprint)
    (cap : Lba) : driveCompletion i tag st fp cap s =
      ((s.fillReport i c.tag (if st = 0 then .doneGood else .doneError st)).setEngine i
        ((s.engine i).free k)).arbiter i := by
  have hleft : ((s.engine i).free k).orphans ≠ 0 := by
    obtain ⟨e, he, hk, ho⟩ := hother
    refine (List.length_pos_of_mem (a := e) (List.mem_filter.2 ⟨List.mem_filter.2 ⟨he, ?_⟩, ho⟩)).ne'
    exact decide_eq_true hk
  have hengine : (s.fillReport i c.tag (if st = 0 then .doneGood else .doneError st)).engine i = s.engine i := by
    unfold State.fillReport
    split <;> rfl
  unfold driveCompletion
  rw [h]
  dsimp only
  unfold completeOrphan
  dsimp only
  rw [hengine, drainCheck_waits (by rw [State.setEngine_engine_same]; exact hleft)]

/-- A PROBE entry that is no longer expected (R59). -/
theorem driveCompletion_unexpected (h : (s.engine i).entry tag = some ⟨k, .probe false⟩) (st : BitVec 16)
    (fp : Fingerprint) (cap : Lba) :
    driveCompletion i tag st fp cap s = (s.setEngine i ((s.engine i).free k)).arbiter i := by
  unfold driveCompletion
  rw [h]
  rfl

theorem driveCompletion_spurious (h : (s.engine i).entry tag = none) (st : BitVec 16) (fp : Fingerprint)
    (cap : Lba) : driveCompletion i tag st fp cap s =
      s.setEngine i { s.engine i with spurious := satInc (s.engine i).spurious } := by
  unfold driveCompletion
  rw [h]
  rfl

end

theorem cpl_lost {s : State} {n : Node} (h : (s.port n).state ≠ .up) (i : Slot) (tag : Byte) (st : CplStatus)
    (d : BitVec 16) : s.sendCpl n i tag st d =
      s.setPort n { s.port n with discardedCpl := satInc (s.port n).discardedCpl } := if_neg h

/-- A bay that serves nothing serves nothing with a tag FREE. -/
theorem arbiter_freed {s v : State} {i : Slot} (hq : s.Quiet i) (k : DriveTag) :
    (v.setEngine i ((s.engine i).free k)).arbiter i = v.setEngine i ((s.engine i).free k) := by
  obtain ⟨hwaiting, hprobe⟩ := hq
  refine arbiter_quiet ⟨?_, ?_⟩
  · rw [State.setEngine_engine_same]
    exact hwaiting
  · rw [State.setEngine_engine_same]
    exact hprobe

/-- Settles O32, by the role of the tag's entry; the arbiter of a quiet bay does nothing. -/
theorem completionsFreeTheirTag : Obligations.CompletionsFreeTheirTag := by
  intro s i tag st fp cap hrun hq
  refine ⟨fun k c d hp hentry => ⟨fun hup => ?_, fun hup => ?_⟩, fun k c d r _ hother hentry hr => ?_,
    fun hentry => next_whenRunning hrun (driveCompletion_spurious hentry st fp cap)⟩
  · refine next_whenRunning hrun ((driveCompletion_active hentry hp st fp cap).trans ?_)
    rw [arbiter_freed hq, cpl_up hup]
    rfl
  · refine next_whenRunning hrun ((driveCompletion_active hentry hp st fp cap).trans ?_)
    rw [arbiter_freed hq, cpl_lost hup]
    rfl
  · refine next_whenRunning hrun ((driveCompletion_orphaned hentry hother st fp cap).trans ?_)
    rw [arbiter_freed hq]
    unfold State.fillReport
    rw [hr]
    rfl

/-! ### The arbiter at a freed tag (R55 to R57) -/

theorem State.Serves.congr {s v t : State} {i : Slot} {e : Engine} {first : List DriveFrame}
    (h : v.Serves i e first t) (hnow : v.now = s.now) (hout : v.driveOut = s.driveOut) : s.Serves i e first t := by
  unfold State.Serves at h ⊢
  rw [← hnow, ← hout]
  exact h

/-- R55 item 1, R57: a probe request takes the lowest FREE tag before any command does. -/
theorem arbiter_probeFirst {s : State} {i : Slot} {p : DriveTag} {rest : List DriveTag}
    (hq : (s.engine i).probeRequest = true) (hf : freeTags (s.engine i).tags = p :: rest)
    (hb : (s.bay i).state = .ready ∨ (s.bay i).state = .suspect) {u : Engine}
    (hu : u = { s.engine i with probeRequest := false, tags := (s.engine i).tags ++ [⟨p, .probe true⟩] }) :
    (s.arbiter i).sweep = { s.sweep with probe := some (.dispatched p (s.now + 10000)) } ∧
    ((s.bay i).state = .ready → s.Serves i u [.identifyTagged p] (s.arbiter i)) ∧
    ((s.bay i).state = .suspect → (s.arbiter i).engine i = u ∧
      (s.arbiter i).driveOut[i] = s.driveOut[i] ++ [.identifyTagged p]) := by
  have harbiter : s.arbiter i = (s.serveProbe i).arbiter i := by
    have hserved : ((s.serveProbe i).engine i).probeRequest = false := by
      rw [serveProbe_served hq hf hb]
      exact congrArg Engine.probeRequest (State.setEngine_engine_same s i _)
    unfold State.arbiter
    rw [serveProbe_none hserved]
  rw [harbiter, serveProbe_served hq hf hb, ← hu]
  generalize hv : ((s.setEngine i u).toDrive i [.identifyTagged p]).setSweep
    { s.sweep with probe := some (.dispatched p (s.now + 10000)) } = v
  have hengine : v.engine i = u := by
    rw [← hv]
    exact State.setEngine_engine_same s i u
  have hprobe : (v.engine i).probeRequest = false := by rw [hengine, hu]
  have hbay : v.bay i = s.bay i := by rw [← hv]; rfl
  have hsweep : v.sweep = { s.sweep with probe := some (.dispatched p (s.now + 10000)) } := by rw [← hv]; rfl
  have hout : v.driveOut[i] = s.driveOut[i] ++ [.identifyTagged p] := by
    rw [← hv]
    exact putAt_get_same _ _ _
  have hnow : v.now = s.now := by rw [← hv]; rfl
  by_cases hr : (s.bay i).state = .ready
  · obtain ⟨⟨hserved, hsent⟩, hframe, -⟩ := arbiter_serves (s := v) (i := i) (by rw [hbay]; exact hr) hprobe
    rw [hengine, hnow] at hserved
    rw [hengine, hout, List.append_nil] at hsent
    exact ⟨((congrArg State.sweep hframe :) : (v.arbiter i).sweep = v.sweep).trans hsweep,
      fun _ => ⟨hserved, hsent⟩, fun hs => absurd (hr.symm.trans hs) (by decide)⟩
  · rw [arbiter_closed (by rw [hbay]; exact hr) (.inr hprobe)]
    exact ⟨hsweep, fun h => absurd h hr, fun _ => ⟨hengine, hout⟩⟩

/-- Everything of a completion but the arbiter: the tag is FREE, and beside it a port or a report changes. -/
structure TagFreed (s : State) (i : Slot) (k : DriveTag) (v : State) : Prop where
  eng : v.engine i = (s.engine i).free k
  frame : { v with engines := s.engines, ports := s.ports, reports := s.reports } = s

theorem TagFreed.setEngine {s v : State} (i : Slot) (k : DriveTag)
    (h : { v with ports := s.ports, reports := s.reports } = s) :
    TagFreed s i k (v.setEngine i ((s.engine i).free k)) :=
  ⟨State.setEngine_engine_same _ _ _, (congrArg (fun u : State => { u with engines := s.engines }) h :)⟩

/-- The completions that commit no slot free their tag and run the arbiter (R58, R59). -/
theorem driveCompletion_frees {s : State} {i : Slot} {tag : Nat} {k : DriveTag} {role : Role}
    (hentry : (s.engine i).entry tag = some ⟨k, role⟩)
    (hrole : (∃ c d, role = .active c d ∧ (s.slot i).phase ≠ .handing) ∨
      (∃ c d, role = .orphaned c d ∧ ∃ e ∈ (s.engine i).tags, e.tag ≠ k ∧ e.isOrphan = true) ∨
      role = .probe false) (st : BitVec 16) (fp : Fingerprint) (cap : Lba) :
    ∃ v, TagFreed s i k v ∧ driveCompletion i tag st fp cap s = v.arbiter i := by
  rcases hrole with ⟨c, d, rfl, hp⟩ | ⟨c, d, rfl, hother⟩ | rfl
  · refine ⟨_, .setEngine i k ?_, driveCompletion_active hentry hp st fp cap⟩
    exact (congrArg (fun u : State => { u with reports := s.reports }) (sendCpl_frame s c.node i c.tag _ st) :)
  · refine ⟨_, .setEngine i k ?_, driveCompletion_orphaned hentry hother st fp cap⟩
    unfold State.fillReport
    split <;> rfl
  · exact ⟨_, .setEngine i k rfl, driveCompletion_unexpected hentry st fp cap⟩

/-! ### The arbiter at a return to READY (R118, R121) -/

/-- R19: re-arming replaces the drain deadline at most. -/
theorem rearmHanding_eq (s : State) (i : Slot) :
    ∃ d, s.rearmHanding i = s.setSlot i { s.slot i with drainDeadline := d } := by
  have hself : s = s.setSlot i { s.slot i with drainDeadline := (s.slot i).drainDeadline } := by
    unfold State.setSlot State.slot
    rw [putAt_self]
  unfold State.rearmHanding
  dsimp only
  split
  · split
    · exact ⟨_, rfl⟩
    · exact ⟨_, hself⟩
  · exact ⟨_, hself⟩

/-- R118: the bay after a good answer that becomes or stays its recorded fingerprint. -/
theorem compareIdentity_ready {s : State} {i : Slot} {fp : Fingerprint}
    (h : (s.bay i).recorded = some fp ∨ (s.slot i).owner = none) (cap : Lba) :
    (s.setBay i { s.bay i with
      bringupDeadline := none, resetDeadline := none, resetCause := none
      awaits := .nothing }).compareIdentity i fp cap = s.setBay i ((s.bay i).identified fp cap) := by
  have hready : (s.setBay i { s.bay i with
      bringupDeadline := none, resetDeadline := none, resetCause := none
      awaits := .nothing }).becomeReady i fp cap = s.setBay i ((s.bay i).identified fp cap) := by
    unfold State.becomeReady
    rw [State.setBay_setBay, State.setBay_bay_same]
    rfl
  unfold State.compareIdentity
  rw [State.setBay_bay_same, hready]
  dsimp only
  split
  · rename_i hnone
    rw [if_neg]
    rcases h with h | h
    · simp [hnone] at h
    · simp [State.owned, h]
  · rename_i r hr
    rcases h with h | h
    · rw [hr] at h
      exact if_pos (Option.some.inj h)
    · split
      · rfl
      · exact if_neg (by simp [State.owned, h])

theorem identityTaken_matches {s : State} {i : Slot} {fp : Fingerprint} (h : (s.bay i).recorded = some fp)
    (cap : Lba) : ∃ d, s.identityTaken i fp cap =
      (s.setBay i ((s.bay i).identified fp cap)).setSlot i { s.slot i with drainDeadline := d } := by
  unfold State.identityTaken
  dsimp only
  rw [compareIdentity_ready (.inl h)]
  split
  · exact rearmHanding_eq _ i
  · refine ⟨(s.slot i).drainDeadline, ?_⟩
    unfold State.setSlot State.slot
    exact congrArg (fun v : Vector SlotRec 8 => { s.setBay i ((s.bay i).identified fp cap) with slots := v })
      (putAt_self s.slots i).symm

/-- Settles O34: a completion frees its tag (`driveCompletion_frees`), an answer makes the bay READY
(`identityTaken_matches`), and the arbiter runs. -/
theorem freedTagsAndReadyBaysServeTheWaiting : Obligations.FreedTagsAndReadyBaysServeTheWaiting := by
  refine fun s i hrun => ⟨fun tag st fp cap k role hentry hrole e he => ?_,
    fun fp cap ha hc hr hprobe hslot => ?_⟩
  · obtain ⟨v, ⟨hengine, hframe⟩, hv⟩ := driveCompletion_frees hentry hrole st fp cap
    have hfree : v.engine i = e := hengine.trans he.symm
    have hbay : v.bay i = s.bay i := (congrArg (fun u => State.bay u i) hframe :)
    have hnow : v.now = s.now := (congrArg State.now hframe :)
    have hout : v.driveOut = s.driveOut := (congrArg State.driveOut hframe :)
    have hsweep : v.sweep = s.sweep := (congrArg State.sweep hframe :)
    have hrequest : (v.engine i).probeRequest = (s.engine i).probeRequest := (congrArg Engine.probeRequest hengine :)
    have harbiter := arbiter_frame v i
    refine ⟨v.arbiter i, next_whenRunning hrun hv,
      ((congrArg State.slots harbiter :) : (v.arbiter i).slots = v.slots).trans (congrArg State.slots hframe :),
      ((congrArg State.bays harbiter :) : (v.arbiter i).bays = v.bays).trans (congrArg State.bays hframe :),
      fun hno => ⟨?_, fun hready => ?_⟩, fun p rest hreq hf hb u hu => ?_, fun hnr hclosed => ?_⟩
    · by_cases hready : (v.bay i).state = .ready
      · obtain ⟨-, hstands, -⟩ := arbiter_serves hready (hrequest.trans hno)
        exact ((congrArg State.sweep hstands :) : (v.arbiter i).sweep = v.sweep).trans hsweep
      · rw [arbiter_closed hready (.inr (hrequest.trans hno)), hsweep]
    · obtain ⟨hserves, -⟩ := arbiter_serves (i := i) (hbay ▸ hready) (hrequest.trans hno)
      exact hfree ▸ hserves.congr hnow hout
    · rw [← hfree] at hf hu
      obtain ⟨hswept, hserves, hsuspect⟩ :=
        arbiter_probeFirst (hrequest.trans hreq) hf (by rw [hbay]; exact hb) hu
      rw [hbay] at hserves hsuspect
      rw [hsweep, hnow] at hswept
      rw [hout] at hsuspect
      exact ⟨hswept, fun hready => (hserves hready).congr hnow hout, hsuspect⟩
    · rw [arbiter_closed (by rw [hbay]; exact hnr) (by rw [hbay, hrequest]; exact hclosed)]
      exact ⟨hfree, hout, hsweep⟩
  · refine ⟨_, exec_identifyAnswer hrun ha hc, ?_⟩
    obtain ⟨d, hd⟩ := identityTaken_matches hr cap
    rw [hd]
    generalize hv : (s.setBay i ((s.bay i).identified fp cap)).setSlot i { s.slot i with drainDeadline := d } = v
    have hvslot : v.slot i = { s.slot i with drainDeadline := d } := by
      rw [← hv]
      exact State.setSlot_slot_same _ i _
    have hvbay : v.bay i = (s.bay i).identified fp cap := by
      rw [← hv]
      exact State.setBay_bay_same s i _
    have hvengine : v.engine i = s.engine i := by rw [← hv]; rfl
    have hchecks : drainCheck i (handingCheck i v) = v := by
      rcases hslot with ⟨hhanding, hdraining⟩ | ⟨x, hhanding, hx, hout⟩
      · rw [handing_off (by rw [hvslot]; exact hhanding), drain_off (by rw [hvslot]; exact hdraining)]
      · rw [handingCheck_waits (x := x) (by rw [hvslot]; exact hx) (by rw [hvengine]; exact hout),
          drain_off (by rw [hvslot]; simp [hhanding])]
    rw [hchecks]
    have hready : (v.bay i).state = .ready := congrArg Bay.state hvbay
    obtain ⟨hserves, hstands, -⟩ := arbiter_serves hready (by rw [hvengine]; exact hprobe)
    refine ⟨?_, hvengine ▸ hserves.congr (by rw [← hv]; rfl) (by rw [← hv]; rfl)⟩
    have hbays : (v.arbiter i).bay i = v.bay i := (congrArg (fun u => State.bay u i) hstands :)
    rw [hbays]
    exact hready

end Sys2Proof.Machine
end

section
/-! A removal and a link reset in full (R66, R67, R116, R120, R123, R128), the identity after bring-up or reset
(R118, R121), and the probe that an audit request asks for (R57, R131, R133, R138). -/

namespace Sys2Proof.Machine

/-! ### A removal (R116) -/

/-- R143: what a notice adds to a queue that is on and unmasked. -/
theorem push_queue_eq {q : NoticeQueue} (x : Notice) (hon : q.on = true) (hmask : q.mask = 0) :
    (q.push x).queue = q.queue ++ if q.queue.length < 32 then [x] else [] := by
  unfold NoticeQueue.push
  dsimp only
  rw [if_neg (by simp [hon, hmask])]
  split <;> simp

/-- R116 step 5, beside `emptyBay_spec`: both nodes are told of the removal, and the reports of the other bays
stand. -/
structure RemovalTold (s : State) (i : Slot) (t : State) : Prop where
  notice : ∀ n, t.notice n =
    (s.notice n).push { slot := some i, tick := s.now, body := .driveRemoved (s.bay i).state }
  reports : ∀ j, j ≠ i → t.report j = s.report j

theorem emptyBay_told (s : State) (i : Slot) : RemovalTold s i (s.emptyBay i) := by
  have hlost := endTagsByRemoval_spec s i
  have hreports : ∀ j, j ≠ i → (s.endTagsByRemoval i).report j = s.report j := by
    intro j hj
    have hframe := (sendCpls_ports i .driveRemoved (activeCommands (s.engine i).tags)
      ((s.setEngine i { s.engine i with tags := [] }).setReport i
        ((s.report i).map (fun r => { r with entries := fillPending .lostRemoved r.entries })))).1
    exact (congrArg (fun u => State.report u j) hframe :).trans ((State.setReport_report _ i _ j).trans (if_neg hj))
  have hdrawn := withdraw_spec (s.endTagsByRemoval i) i .driveRemoved
  unfold State.emptyBay
  generalize s.endTagsByRemoval i = u at hlost hreports hdrawn ⊢
  generalize u.withdraw i .driveRemoved = v at hdrawn ⊢
  have hvreports : v.reports = u.reports := (congrArg State.reports hdrawn.frame :)
  have hvnotices : v.notices = s.notices :=
    ((congrArg State.notices hdrawn.frame :) : v.notices = u.notices).trans (congrArg State.notices hlost.frame :)
  have hvnow : v.now = s.now :=
    ((congrArg State.now hdrawn.frame :) : v.now = u.now).trans (congrArg State.now hlost.frame :)
  refine ⟨fun n => ?_, fun j hj => Eq.trans ?_ (hreports j hj)⟩
  · rw [raiseBoth_notice]
    simp only [State.notice, State.setBay_notices, State.setEngine_notices, State.setBay_now, State.setEngine_now,
      hvnotices, hvnow]
  · show v.reports[j] = u.reports[j]
    rw [hvreports]

/-- Settles O36: the bay's part (`emptyBay_spec`, `emptyBay_told`), after which no slot commits. -/
theorem removalEmptiesTheBay : Obligations.RemovalEmptiesTheBay := by
  intro s i hrun hd hin hs hstill hprobe
  obtain ⟨hhanding, hdraining⟩ := hstill
  have hemptied := emptyBay_spec s i
  have htold := emptyBay_told s i
  have hexec := exec_removal hrun hd hin hs hprobe
  generalize s.emptyBay i = v at hemptied htold hexec
  have hslots : v.slots = s.slots := (congrArg State.slots hemptied.frame :)
  have hslot : v.slot i = s.slot i := by unfold State.slot; rw [hslots]
  rw [handing_off (by rw [hslot]; exact hhanding), drain_off (by rw [hslot]; exact hdraining)] at hexec
  refine ⟨v, hexec, hemptied.bay, hemptied.eng, hemptied.port, fun r hr => ?_, fun n hon hmask hlen => ?_, hslots,
    (congrArg State.windows hemptied.frame :), (congrArg State.store hemptied.frame :),
    (congrArg State.batches hemptied.frame :), fun j hj =>
    ⟨(hemptied.oth j hj).1, (hemptied.oth j hj).2, htold.reports j hj⟩⟩
  · rw [hemptied.rep, hr]
    rfl
  · rw [htold.notice, push_queue_eq _ hon hmask, if_pos hlen]

/-! ### A link reset (R120, R123, R128) -/

theorem answered_unsent (s : State) (n m : Node) (id : BitVec 16) (c : Byte) (r : Result) (d : List Byte) :
    ((s.answered n id c r d).port m).unsent = (s.port m).unsent ++ if m = n then [.rsp id c r d] else [] := by
  refine (congrArg Port.unsent (Pair.get_put s.ports n m _)).trans ?_
  by_cases hm : m = n
  · subst hm
    rw [if_pos rfl, if_pos rfl]
    rfl
  · rw [if_neg hm, if_neg hm, List.append_nil]
    rfl

theorem setBay_self (s : State) (i : Slot) : s.setBay i (s.bay i) = s := by
  unfold State.setBay State.bay
  rw [putAt_self]

theorem judgeResetDrive_owner {s : State} {n : Node} {i : Slot} (hl : s.live n = true)
    (hp : (s.slot i).phase = .owned) (ho : (s.slot i).owner = some n)
    (hs : (s.bay i).state = .ready ∨ (s.bay i).state = .suspect) : judgeResetDrive n i s = .done := by
  have hres := (Bay.resettable_iff s i).2 hs
  rcases hs with hs | hs <;> simp [judgeResetDrive, hl, ho, hp, hs, hres]

/-- Settles O38: either event is the reset that `beginReset_spec` describes, and nothing follows it but the
answer of the request. -/
theorem linkResetEndsTheTags : Obligations.LinkResetEndsTheTags := by
  intro s i hrun hs hp hprobe after hafter
  have key : ∀ {b : Bay} {cause : ResetCause} {reply : List NodeFrame} {n : Node} {v t : State},
      b.recorded = (s.bay i).recorded → b.resetsStarted = (s.bay i).resetsStarted →
      ResetBegun (s.setBay i b) i cause v → { t with ports := v.ports } = v →
      (t.port n).unsent = (v.port n).unsent ++ reply → after cause reply n t := by
    intro b cause reply n v t hrec hcount hreset hframe hunsent
    have hbay : ∀ j, t.bay j = v.bay j := fun j => (congrArg (fun u => State.bay u j) hframe :)
    have hengine : ∀ j, t.engine j = v.engine j := fun j => (congrArg (fun u => State.engine u j) hframe :)
    have hreport : t.report i = v.report i := (congrArg (fun u => State.report u i) hframe :)
    have hout : t.driveOut = v.driveOut := (congrArg State.driveOut hframe :)
    rw [hafter, hbay, hengine, hreset.bay, hreset.eng, State.setBay_bay_same]
    refine ⟨rfl, rfl, rfl, rfl, rfl, hrec, congrArg satInc hcount, rfl, rfl, fun hup => ?_, fun r hr => ?_, ?_,
      ((congrArg State.slots hframe :) : t.slots = v.slots).trans hreset.sl,
      ((congrArg State.windows hframe :) : t.windows = v.windows).trans hreset.win,
      ((congrArg State.store hframe :) : t.store = v.store).trans hreset.sto, fun j hj => ⟨?_, ?_⟩⟩
    · rw [hunsent, (hreset.port n).2 hup]
      rfl
    · have hrep : v.report i = (s.report i).map (·.abort cause s.now) := hreset.rep
      rw [hreport, hrep, hr]
      rfl
    · rw [hout, hreset.out]
      rfl
    · rw [hbay, (hreset.oth j hj).1, State.setBay_bay, if_neg hj]
    · rw [hengine, (hreset.oth j hj).2]
      rfl
  refine ⟨⟨_, exec_driveLinkLoss hrun hs hprobe, ?_⟩, fun n id ht hl hown ho => ?_⟩
  · have hreset := beginReset_spec (s.setBay i { s.bay i with linkLosses := satInc (s.bay i).linkLosses }) i .linkLoss
    generalize (s.setBay i { s.bay i with linkLosses := satInc (s.bay i).linkLosses }).beginReset i .linkLoss = v
      at hreset ⊢
    rw [handing_off (by rw [hreset.bayPart.slot]; exact hp)]
    refine ⟨fun n => key (b := { s.bay i with linkLosses := satInc (s.bay i).linkLosses }) rfl rfl hreset rfl
      (List.append_nil _).symm, ?_⟩
    rw [hreset.bay, State.setBay_bay_same]
  · have hjudge := judgeResetDrive_owner hl hown ho hs
    have hreset := beginReset_spec s i .resetDrive
    refine ⟨_, next_whenUp ht (if_pos hjudge), ?_⟩
    rw [linkReset_still ((Bay.resettable_iff s i).2 hs) hp hprobe]
    generalize s.beginReset i .resetDrive = v at hreset ⊢
    rw [reply_up ((hreset.port n).1.trans ht.2)]
    exact key (b := s.bay i) rfl rfl (by rw [setBay_self]; exact hreset) rfl
      ((answered_unsent v n n _ _ _ _).trans (congrArg _ (if_pos rfl)))

/-! ### The identity after bring-up or reset (R118, R121) -/

/-- Everything that changes where a foreign drive makes an owned bay SUSPECT (R118). -/
structure Suspected (s : State) (i : Slot) (fp : Fingerprint) (cap : Lba) (t : State) : Prop where
  bay : t.bay i = { s.bay i with state := .suspect, presented := some fp, capacity := some cap }
  eng : t.engine i = { s.engine i with waiting := [] }
  port : ∀ n, (s.port n).state = .up → (t.port n).unsent = (s.port n).unsent ++
    cplsFor n i .checkDrive (s.slot i).generation (s.engine i).waiting
  notice : ∀ n, t.notice n =
    (s.notice n).push { slot := some i, tick := s.now, body := .driveSuspect fp }
  frame : { t with engines := s.engines, ports := s.ports, bays := s.bays, notices := s.notices } = s

theorem becomeSuspect_spec (s : State) (i : Slot) (fp : Fingerprint) (cap : Lba) :
    Suspected s i fp cap (s.becomeSuspect i fp cap) := by
  have hdrawn := withdraw_spec
    (s.setBay i { s.bay i with state := .suspect, presented := some fp, capacity := some cap }) i .checkDrive
  unfold State.becomeSuspect
  dsimp only
  generalize State.withdraw _ i .checkDrive = v at hdrawn ⊢
  refine ⟨?_, hdrawn.eng, fun n hup => (hdrawn.port n).2 hup, fun n => ?_,
    (congrArg (fun u : State => { u with bays := s.bays, notices := s.notices }) hdrawn.frame :)⟩
  · exact ((congrArg (fun u => State.bay u i) hdrawn.frame :) : v.bay i = _).trans (State.setBay_bay_same s i _)
  · rw [raiseBoth_notice, show v.notice n = s.notice n from (congrArg (fun u => State.notice u n) hdrawn.frame :),
      show v.now = s.now from (congrArg State.now hdrawn.frame :)]

/-- The bay whose awaited answer is in, before it is compared (R117, R121). -/
def Bay.answered (b : Bay) : Bay :=
  { b with bringupDeadline := none, resetDeadline := none, resetCause := none, awaits := .nothing }

/-- R118: a good answer that differs from the recorded fingerprint, at an owned slot. -/
theorem compareIdentity_foreign {s : State} {i : Slot} {fp r : Fingerprint} (hr : (s.bay i).recorded = some r)
    (hne : r ≠ fp) (ho : (s.slot i).owner.isSome) (cap : Lba) :
    s.compareIdentity i fp cap = s.becomeSuspect i fp cap := by
  unfold State.compareIdentity
  rw [hr]
  exact (if_neg hne).trans (if_pos ho)

/-- R118: the first fingerprint of an owned slot. -/
theorem compareIdentity_first {s : State} {i : Slot} (hr : (s.bay i).recorded = none)
    (ho : (s.slot i).owner.isSome) (fp : Fingerprint) (cap : Lba) :
    s.compareIdentity i fp cap = (s.becomeReady i fp cap).queueUpdate i false := by
  unfold State.compareIdentity
  rw [hr]
  exact if_pos ho

theorem becomeReady_answered (s : State) (i : Slot) (fp : Fingerprint) (cap : Lba) :
    (s.setBay i (s.bay i).answered).becomeReady i fp cap = s.setBay i ((s.bay i).identified fp cap) := by
  unfold State.becomeReady
  rw [State.setBay_setBay, State.setBay_bay_same]
  rfl

theorem compareIdentity_slots (s : State) (i : Slot) (fp : Fingerprint) (cap : Lba) :
    (s.compareIdentity i fp cap).slots = s.slots := by
  have hready : (s.becomeReady i fp cap).slots = s.slots := rfl
  have hsuspect : (s.becomeSuspect i fp cap).slots = s.slots :=
    (congrArg State.slots (becomeSuspect_spec s i fp cap).frame :)
  unfold State.compareIdentity
  split
  · split
    · exact (queueUpdate_slots _ i false).trans hready
    · exact hready
  · split
    · exact hready
    · split
      · exact hsuspect
      · exact hready

/-- An answer at a slot neither HANDING nor DRAINING is compared, and the arbiter runs. -/
theorem exec_identifyAnswer_still {s : State} {i : Slot} {fp : Fingerprint} {cap : Lba} (hrun : s.running = true)
    (ha : (s.bay i).awaits = .identity) (hc : cap ≠ 0) (hstill : s.Still i) :
    exec (.identifyAnswer i 0 fp cap) s =
      .next (((s.setBay i (s.bay i).answered).compareIdentity i fp cap).arbiter i) := by
  have hslots := compareIdentity_slots (s.setBay i (s.bay i).answered) i fp cap
  have hphase : (((s.setBay i (s.bay i).answered).compareIdentity i fp cap).slot i).phase = (s.slot i).phase := by
    unfold State.slot
    rw [hslots]
    rfl
  obtain ⟨hhanding, hdraining⟩ := hstill
  have htaken : s.identityTaken i fp cap = (s.setBay i (s.bay i).answered).compareIdentity i fp cap := by
    have hoff := rearmHanding_off (s := (s.setBay i (s.bay i).answered).compareIdentity i fp cap) (i := i)
      (by rw [hphase]; exact hhanding)
    unfold State.identityTaken
    dsimp only
    split
    · exact hoff
    · rfl
  rw [exec_identifyAnswer hrun ha hc, htaken, handing_off (by rw [hphase]; exact hhanding),
    drain_off (by rw [hphase]; exact hdraining)]

/-- Settles O37, by what the answer is compared with. -/
theorem foreignDriveIsSuspect : Obligations.ForeignDriveIsSuspect := by
  rintro s i fp cap hrun ha hc - hstill hprobe b rfl ready hready
  have hexec := exec_identifyAnswer_still (fp := fp) hrun ha hc hstill
  have served : ∀ v, (s.setBay i (s.bay i).answered).compareIdentity i fp cap = v → (v.bay i).state = .ready →
      v.engines = s.engines → v.driveOut = s.driveOut → ready v := by
    intro v hv hb he ho
    have hengine : ∀ j, v.engine j = s.engine j := fun j => by unfold State.engine; rw [he]
    rw [hv] at hexec
    obtain ⟨hserves, hframe, hothers⟩ := arbiter_serves hb (by rw [hengine]; exact hprobe)
    rw [he, ho] at hframe
    refine (hready v).2 ⟨_, hexec, hengine i ▸ hserves, fun j hj => ⟨?_, ?_⟩, hframe⟩
    · exact (hothers j hj).1.trans (hengine j)
    · rw [(hothers j hj).2, ho]
  refine ⟨fun r hr hne ho => ⟨_, hexec, ?_⟩, fun v hv => ⟨fun hne ho => ?_, fun hr ho => ?_⟩⟩
  · rw [compareIdentity_foreign (by rw [State.setBay_bay_same]; exact hr) hne (by exact ho)]
    have hsus := becomeSuspect_spec (s.setBay i (s.bay i).answered) i fp cap
    generalize (s.setBay i (s.bay i).answered).becomeSuspect i fp cap = t at hsus ⊢
    have hbay := hsus.bay
    rw [State.setBay_bay_same] at hbay
    rw [arbiter_closed (by rw [hbay]; simp) (.inr (by rw [hsus.eng]; exact hprobe))]
    refine ⟨hbay, hsus.eng, hsus.port, fun n hon hmask hlen => ?_, (congrArg State.slots hsus.frame :),
      (congrArg State.store hsus.frame :), (congrArg State.windows hsus.frame :)⟩
    rw [hsus.notice]
    exact (push_queue_eq _ hon hmask).trans (congrArg _ (if_pos hlen))
  · exact served v ((compareIdentity_ready (.inr ho) cap).trans hv.symm) (by rw [hv, State.setBay_bay_same])
      (by rw [hv]; rfl) (by rw [hv]; rfl)
  · have hfirst := compareIdentity_first (s := s.setBay i (s.bay i).answered) (i := i)
      (by rw [State.setBay_bay_same]; exact hr) ho fp cap
    rw [becomeReady_answered] at hfirst
    have hv' : v = s.setBay i ((s.bay i).identified fp cap) := hv
    have hbay : v.bay i = (s.bay i).identified fp cap := by rw [hv', State.setBay_bay_same]
    rw [← hv'] at hfirst
    have hvready : (v.bay i).state = .ready := congrArg Bay.state hbay
    refine ⟨fun hf => ?_, fun st hst => ?_⟩
    · refine served v (hfirst.trans ?_) hvready (by rw [hv]; rfl) (by rw [hv]; rfl)
      have hmode : v.store.mode = .faulted := by rw [hv]; exact hf
      unfold State.queueUpdate
      rw [hmode]
    · refine served (v.setStore st) (hfirst.trans (State.queueUpdate_of_accepts ?_)) hvready (by rw [hv]; rfl)
        (by rw [hv]; rfl)
      rw [hbay, hv]
      exact hst

/-! ### The probe that an audit request asks for (R57, R131, R133, R138) -/

theorem auditModeOf_code (m : AuditMode) : auditModeOf (BitVec.ofNat 8 (auditModeCode m)) = some m := by
  cases m <;> rfl

/-- R133 item 3: a READY or SUSPECT bay of a slot at rest or CLAIMED needs a probe. -/
theorem outcomeAtOnce_none {s : State} {i : Slot} (hb : (s.bay i).state = .ready ∨ (s.bay i).state = .suspect)
    (hp : (s.slot i).phase = .unowned ∨ (s.slot i).phase = .owned ∨ (s.slot i).phase = .claimed) :
    s.outcomeAtOnce i = none := by
  unfold State.outcomeAtOnce
  rcases hb with hb | hb <;> rcases hp with hp | hp | hp <;> rw [hb, hp]

/-- R131: START_AUDIT with no sweep running. -/
theorem startSweep_idle {s : State} {n : Node} (h : s.sweep.state = .idle) (first last : Slot) (m : AuditMode)
    (budget : Byte) : startSweep n first last m budget s = handleSlot first (s.setSweep { s.sweep with
      state := .probing, holder := none, probe := none, ended := none
      run := some { requester := n, first := first, last := last, mode := m, budget := budget, issued := 0
                    pass := 0, startTick := s.now } }) := by
  unfold startSweep
  dsimp only
  rw [endSweepOf_off _ (by simp [Sweep.runsFor, h])]

/-- Settles O55: both requests handle the slot, whose probe goes out (`handleSlot_probes`) or waits
(`handleSlot_requests`). -/
theorem auditProbesTheSlot : Obligations.AuditProbesTheSlot := by
  intro s n id i ht hb hp asked hasked
  have key : ∀ (v : State) (p : Probe), (v.port n).state = .up →
      (∀ w, (s.setSweep w).outcomeAtOnce i = none →
        handleSlot i (s.setSweep w) = v.setSweep { w with state := .probing, current := some i, probe := some p }) →
      asked v p := by
    intro v p hup hhandled
    have hone : ∀ w, (s.setSweep w).outcomeAtOnce i = none := fun w => outcomeAtOnce_none hb hp
    refine (hasked v p).2 ⟨fun last mode budget hl hon hidle => next_whenUp ht ?_, fun hpaused hruns hcur =>
      next_whenUp ht ?_⟩
    · have hjudge : judgeStart n s = .done := by simp [judgeStart, hl, hon, hidle]
      rw [auditModeOf_code]
      dsimp only
      rw [if_pos hjudge, startSweep_idle hidle, hhandled _ (hone _)]
      exact reply_up (by exact hup) _ _ _ _
    · have hjudge : judgeSweep n s = .done := by simp [judgeSweep, hpaused, hruns]
      rw [if_neg (not_not_intro hjudge), hpaused, hcur]
      dsimp only
      have hself := hhandled s.sweep (hone _)
      rw [show s.setSweep s.sweep = s from rfl] at hself
      rw [hself, reply_up (by exact hup), ← hcur]
      rfl
  refine ⟨fun k hw hk => key _ _ ht.2 fun w ho => ?_, fun hk => key _ _ ht.2 fun w ho => ?_⟩
  · exact handleSlot_probes (s := s.setSweep w) hb ho hw hk
  · exact handleSlot_requests (s := s.setSweep w) ho hk

end Sys2Proof.Machine
end

section
/-! The end of an audit probe (R59, R119, R130, R132, R134 to R137): by its limit, its answer, a removal or a link
reset. -/

namespace Sys2Proof.Machine

/-! ### Notices that join a queue -/

/-- R143: what at most one notice adds to a queue that is on and unmasked. -/
theorem pushes_queue {ns : List Notice} (hns : ns.length ≤ 1) {q : NoticeQueue} (hon : q.on = true)
    (hmask : q.mask = 0) : (ns.foldl NoticeQueue.push q).on = true ∧ (ns.foldl NoticeQueue.push q).mask = 0 ∧
      (ns.foldl NoticeQueue.push q).queue = q.queue ++ if q.queue.length < 32 then ns else [] := by
  match ns with
  | [] => exact ⟨hon, hmask, by simp⟩
  | [x] =>
    obtain ⟨hon', hmask'⟩ := push_on_mask q x
    exact ⟨hon'.trans hon, hmask'.trans hmask, push_queue_eq x hon hmask⟩
  | _ :: _ :: _ => simp at hns

/-! ### What an event of the bay does before a probe is settled -/

/-- An event has left the bay `i` as `b` with the engine `e`, told both nodes `ns` and sent the CPLs `frames`;
slots, sweep and time stand. -/
structure BayEvent (s : State) (i : Slot) (v : State) (b : Bay) (e : Engine) (ns : List Notice)
    (frames : Node → List NodeFrame) : Prop where
  bay : v.bay i = b
  eng : v.engine i = e
  port : ∀ n, (s.port n).state = .up → (v.port n).unsent = (s.port n).unsent ++ frames n
  told : ∀ n, v.notice n = ns.foldl NoticeQueue.push (s.notice n)
  few : ns.length ≤ 1
  slots : v.slots = s.slots
  sweep : v.sweep = s.sweep
  now : v.now = s.now

theorem BayEvent.setEngine (s : State) (i : Slot) (e : Engine) :
    BayEvent s i (s.setEngine i e) (s.bay i) e [] (fun _ => []) :=
  ⟨rfl, State.setEngine_engine_same s i e, fun _ _ => (List.append_nil _).symm, fun _ => rfl, Nat.zero_le _, rfl, rfl,
    rfl⟩

theorem BayEvent.setBay (s : State) (i : Slot) (e : Engine) (b : Bay) :
    BayEvent s i ((s.setEngine i e).setBay i b) b e [] (fun _ => []) :=
  ⟨State.setBay_bay_same _ i b, State.setEngine_engine_same s i e, fun _ _ => (List.append_nil _).symm,
    fun _ => rfl, Nat.zero_le _, rfl, rfl, rfl⟩

theorem Suspected.bayEvent {s v : State} {i : Slot} {e : Engine} {fp : Fingerprint} {cap : Lba}
    (h : Suspected (s.setEngine i e) i fp cap v) :
    BayEvent s i v { s.bay i with state := .suspect, presented := some fp, capacity := some cap }
      { e with waiting := [] } [{ slot := some i, tick := s.now, body := .driveSuspect fp }]
      (fun n => cplsFor n i .checkDrive (s.slot i).generation e.waiting) := by
  refine ⟨h.bay, ?_, fun n hup => ?_, h.notice, le_rfl, (congrArg State.slots h.frame :),
    (congrArg State.sweep h.frame :), (congrArg State.now h.frame :)⟩
  · have heng := h.eng
    rwa [State.setEngine_engine_same] at heng
  · have hport := h.port n hup
    rwa [State.setEngine_engine_same] at hport

theorem BayEmptied.bayEvent {s v : State} {i : Slot} (h : BayEmptied s i v) (ht : RemovalTold s i v) :
    BayEvent s i v (v.bay i) { s.engine i with waiting := [], tags := [], probeRequest := false }
      [{ slot := some i, tick := s.now, body := .driveRemoved (s.bay i).state }]
      (fun n => cplsFor n i .driveRemoved (s.slot i).generation
        (activeCommands (s.engine i).tags ++ (s.engine i).waiting)) :=
  ⟨rfl, h.eng, h.port, ht.notice, le_rfl, (congrArg State.slots h.frame :), (congrArg State.sweep h.frame :),
    (congrArg State.now h.frame :)⟩

theorem ResetBegun.bayEvent {s v : State} {i : Slot} {c : ResetCause} {b : Bay}
    (h : ResetBegun (s.setBay i b) i c v) :
    BayEvent s i v (v.bay i) { s.engine i with tags := [], probeRequest := false } []
      (fun n => cplsFor n i .abortedReset (s.slot i).generation (activeCommands (s.engine i).tags)) := by
  refine ⟨rfl, h.eng, fun n hup => (h.port n).2 hup, fun n => ?_, Nat.zero_le _, h.sl, h.swp,
    congrArg Timebase.tick h.tim⟩
  unfold State.notice
  rw [h.noti]
  rfl

/-! ### The probe's result and the end of the sweep -/

/-- R130: the result of a probe with the bay state that the event leaves. -/
def State.resultIn (s : State) (i : Slot) (o : AuditOutcome) (b : BayState) (fp : Option Fingerprint)
    (st : Option (BitVec 16)) : AuditResult :=
  { s.auditResult i o fp st with bayState := b }

/-- The AUDIT_ENDED that follows the last result of a sweep (R139). -/
def State.doneNotice (s : State) (w : SweepRun) : Notice :=
  { slot := none, tick := s.now, body := .auditEnded .done (satInc w.issued) w.pass }

section
variable {s v : State} {i : Slot} {b : Bay} {e : Engine} {ns : List Notice} {frames : Node → List NodeFrame}

theorem BayEvent.slot_eq (h : BayEvent s i v b e ns frames) (j : Slot) : v.slot j = s.slot j := by
  unfold State.slot
  rw [h.slots]

theorem BayEvent.auditResult_eq (h : BayEvent s i v b e ns frames) (o : AuditOutcome) (fp : Option Fingerprint)
    (st : Option (BitVec 16)) : v.auditResult i o fp st = s.resultIn i o b.state fp st := by
  unfold State.resultIn State.auditResult
  rw [h.bay, h.slot_eq, h.now]

end

/-- A sweep without a budget probes slot `i`, its requester's notices on and unmasked. -/
structure Probing (s : State) (i : Slot) (w : SweepRun) : Prop where
  running : s.running = true
  probing : s.probing i = true
  run : s.sweep.run = some w
  budget : w.budget = 0
  on : (s.notice w.requester).on = true
  mask : (s.notice w.requester).mask = 0
  still : s.Still i

theorem probing_of {s : State} {i : Slot} {p : Probe} (h1 : s.sweep.state = .probing)
    (h2 : s.sweep.current = some i) (h3 : s.sweep.probe = some p) : s.probing i = true := by
  simp [State.probing, h1, h2, h3]

/-- The last result `r` of a sweep is placed behind `ns` and the sweep ends DONE; `v` is the state in which the
probe was settled (R132, R139). -/
structure SweepDone (s : State) (i : Slot) (w : SweepRun) (ns : List Notice) (v : State) (r : AuditResult)
    (t : State) : Prop where
  state : t.sweep.state = .idle
  ended : t.sweep.ended = some (.done, s.now)
  table : t.sweep.table[i] = some r
  current : t.sweep.current = none
  probe : t.sweep.probe = none
  holder : t.sweep.holder = none
  queue : (t.notice w.requester).queue = (s.notice w.requester).queue ++ ns ++ [r.notice, s.doneNotice w]
  partner : t.notice w.requester.partner = v.notice w.requester.partner
  slots : t.slots = v.slots
  bays : t.bays = v.bays
  ports : t.ports = v.ports

theorem SweepDone.of_eq {s v t u : State} {i : Slot} {w : SweepRun} {ns : List Notice} {r : AuditResult}
    (h : SweepDone s i w ns v r t) (hf : { u with engines := t.engines, driveOut := t.driveOut } = t) :
    SweepDone s i w ns v r u := by
  have hsweep : u.sweep = t.sweep := (congrArg State.sweep hf :)
  have hnotice : ∀ n, u.notice n = t.notice n := fun n => (congrArg (fun x => State.notice x n) hf :)
  constructor
  · rw [hsweep, h.state]
  · rw [hsweep, h.ended]
  · rw [hsweep, h.table]
  · rw [hsweep, h.current]
  · rw [hsweep, h.probe]
  · rw [hsweep, h.holder]
  · rw [hnotice, h.queue]
  · rw [hnotice, h.partner]
  · exact (congrArg State.slots hf :).trans h.slots
  · exact (congrArg State.bays hf :).trans h.bays
  · exact (congrArg State.ports hf :).trans h.ports

/-- A probe that is settled at the last slot of a sweep that is not CYCLIC. -/
theorem settleProbe_done {s v : State} {i : Slot} {w : SweepRun} {b : Bay} {e : Engine} {ns : List Notice}
    {frames : Node → List NodeFrame} (h : Probing s i w) (hev : BayEvent s i v b e ns frames) (hlast : w.last = i)
    (hmode : w.mode ≠ .cyclic) (hroom : (s.notice w.requester).queue.length + ns.length < 31) (o : AuditOutcome)
    (fp : Option Fingerprint) (st : Option (BitVec 16)) :
    SweepDone s i w ns v (s.resultIn i o b.state fp st) (settleProbe i o fp st v) ∧
      { settleProbe i o fp st v with sweep := v.sweep, notices := v.notices } = v := by
  obtain ⟨hon, hmask, hqueue⟩ := pushes_queue hev.few h.on h.mask
  rw [← hev.told] at hon hmask hqueue
  rw [if_pos (by omega)] at hqueue
  obtain ⟨hdone, -, -⟩ := settleProbe_places (i := i) (o := o) (fp := fp) (st := st)
    (by rw [hev.sweep]; exact h.run) h.budget hon hmask rfl rfl _ rfl
  obtain ⟨hsweep, hqueued, hframe, hpartner⟩ := hdone (by rw [hqueue, List.length_append]; exact hroom) hlast hmode
  rw [hev.auditResult_eq] at hsweep hqueued
  refine ⟨⟨by rw [hsweep], by rw [hsweep, hev.now], ?_, by rw [hsweep], by rw [hsweep], by rw [hsweep], ?_, hpartner,
    (congrArg State.slots hframe :), (congrArg State.bays hframe :), (congrArg State.ports hframe :)⟩, hframe⟩
  · rw [hsweep]
    exact putAt_get_same _ _ _
  · rw [hqueued, hqueue, hev.now]
    rfl

/-! ### The limit of a probe (R134) -/

/-- R134, R139: a dispatched probe is no longer expected. -/
def Engine.unexpect (e : Engine) (k : DriveTag) : Engine :=
  { e with tags := e.tags.map (fun t => if t.tag = k ∧ t.isProbe = true then { t with role := .probe false } else t) }

theorem releaseProbe_dispatched {s : State} {i : Slot} {k : DriveTag} {d : Tick} (hc : s.sweep.current = some i)
    (hp : s.sweep.probe = some (.dispatched k d)) :
    s.releaseProbe = s.setEngine i ((s.engine i).unexpect k) := by
  unfold State.releaseProbe
  rw [hc, hp]
  rfl

theorem exec_probeDeadline {s : State} {i : Slot} {k : DriveTag} (hrun : s.running = true)
    (hs : s.sweep.state = .probing) (hc : s.sweep.current = some i)
    (hp : s.sweep.probe = some (.dispatched k s.now)) : exec .probeDeadline s =
      .next (settleProbe i .noResponse none none (s.setEngine i ((s.engine i).unexpect k))) := by
  refine next_whenRunning hrun ?_
  rw [← releaseProbe_dispatched hc hp]
  unfold probeExpires
  rw [hc, hp]
  exact if_pos ⟨hs, rfl⟩

/-! ### The answer to a probe (R59, R119, R135) -/

/-- With no probe requested, the arbiter changes the engine and the drive link of a READY bay at most. -/
theorem arbiter_noRequest {s : State} {i : Slot} (hq : (s.engine i).probeRequest = false) :
    { s.arbiter i with engines := s.engines, driveOut := s.driveOut } = s ∧
      ((s.bay i).state = .ready → s.Serves i (s.engine i) [] (s.arbiter i)) ∧
      ((s.bay i).state ≠ .ready → s.arbiter i = s) := by
  by_cases hb : (s.bay i).state = .ready
  · obtain ⟨hserves, hframe, -⟩ := arbiter_serves hb hq
    exact ⟨hframe, fun _ => hserves, fun h => absurd hb h⟩
  · have hclosed := arbiter_closed hb (.inr hq)
    exact ⟨by rw [hclosed], fun h => absurd h hb, fun _ => hclosed⟩

/-- The arbiter has run at the bay that an event left with the engine `e`. -/
structure Arbitrated (s : State) (i : Slot) (v : State) (e : Engine) (t : State) : Prop where
  ready : (v.bay i).state = .ready → s.Serves i e [] t
  closed : (v.bay i).state ≠ .ready → t.engine i = e ∧ t.driveOut = s.driveOut

/-- The answer to a probe is settled in the state `v` at the last slot, and the arbiter runs. -/
theorem settleThenArbiter {s v : State} {i : Slot} {w : SweepRun} {b : Bay} {e : Engine} {ns : List Notice}
    {frames : Node → List NodeFrame} (h : Probing s i w) (hev : BayEvent s i v b e ns frames) (hlast : w.last = i)
    (hmode : w.mode ≠ .cyclic) (hroom : (s.notice w.requester).queue.length + ns.length < 31)
    (hreq : e.probeRequest = false) (hout : v.driveOut = s.driveOut) (o : AuditOutcome) (fp : Option Fingerprint)
    (st : Option (BitVec 16)) :
    SweepDone s i w ns v (s.resultIn i o b.state fp st) ((settleProbe i o fp st v).arbiter i) ∧
      Arbitrated s i v e ((settleProbe i o fp st v).arbiter i) := by
  obtain ⟨hdone, hframe⟩ := settleProbe_done h hev hlast hmode hroom o fp st
  generalize settleProbe i o fp st v = u at hdone hframe ⊢
  have hengine : u.engine i = e := ((congrArg (fun x => State.engine x i) hframe :) : _ = v.engine i).trans hev.eng
  have hbay : u.bay i = v.bay i := (congrArg (fun x => State.bay x i) hframe :)
  have hnow : u.now = s.now := ((congrArg State.now hframe :) : u.now = v.now).trans hev.now
  have hdrive : u.driveOut = s.driveOut := ((congrArg State.driveOut hframe :) : u.driveOut = v.driveOut).trans hout
  obtain ⟨hstands, hready, hclosed⟩ := arbiter_noRequest (s := u) (i := i) (by rw [hengine]; exact hreq)
  refine ⟨hdone.of_eq hstands, fun hr => ?_, fun hr => ?_⟩
  · rw [hbay, hengine] at hready
    exact (hready hr).congr hnow hdrive
  · rw [hbay] at hclosed
    rw [hclosed hr]
    exact ⟨hengine, hdrive⟩

section
variable {s : State} {i : Slot} {k : DriveTag} {w : SweepRun}

theorem exec_probeAnswer (h : Probing s i w) (hentry : (s.engine i).entry k.val = some ⟨k, .probe true⟩)
    (st : BitVec 16) (fp : Fingerprint) (cap : Lba) : exec (.driveCompletion i k.val st fp cap) s =
      .next ((answerProbe i st fp cap (s.setEngine i ((s.engine i).free k))).arbiter i) := by
  refine next_whenRunning h.running ?_
  have hprobing : (s.setEngine i ((s.engine i).free k)).probing i = true := h.probing
  unfold driveCompletion
  rw [hentry]
  dsimp only
  unfold completeProbe
  dsimp only
  rw [hprobing]
  rfl

theorem answerProbe_failed {st : BitVec 16} {cap : Lba} (hbad : st ≠ 0 ∨ cap = 0) (fp : Fingerprint) (v : State) :
    answerProbe i st fp cap v =
      settleProbe i .probeFailed (if st = 0 then some fp else none) (some st) v := by
  have hno : ¬goodAnswer st cap = true := by
    simp only [goodAnswer, Bool.and_eq_true, decide_eq_true_eq]
    exact fun hgood => hbad.elim (fun h => h hgood.1) hgood.2
  unfold answerProbe
  exact if_neg hno

/-- A good answer: what the Bay Controller made of it (R119), then the result. -/
theorem answerProbe_good {v u : State} {fp : Fingerprint} {cap : Lba} (hc : cap ≠ 0)
    (hu : v.taggedIdentity i fp cap = u) (hslots : u.slots = v.slots) (hstill : v.Still i) :
    answerProbe i 0 fp cap v =
      settleProbe i (answerOutcome (v.bay i).recorded (v.owned i) fp) (some fp) none u := by
  have hphase : (u.slot i).phase ≠ .handing := by
    unfold State.slot
    rw [hslots]
    exact hstill.1
  unfold answerProbe
  rw [if_pos (goodAnswer_zero hc), hu, handing_off hphase]

/-- A probe answered with a good identity at the last slot, where the Bay Controller's part is known. -/
theorem probeAnswer_settles (h : Probing s i w) (hentry : (s.engine i).entry k.val = some ⟨k, .probe true⟩)
    (hlast : w.last = i) (hmode : w.mode ≠ .cyclic) {fp : Fingerprint} {cap : Lba} (hc : cap ≠ 0) {u : State}
    {b : Bay} {e : Engine} {ns : List Notice} {frames : Node → List NodeFrame}
    (hu : (s.setEngine i ((s.engine i).free k)).taggedIdentity i fp cap = u)
    (hev : BayEvent s i u b e ns frames) (hout : u.driveOut = s.driveOut) (hreq : e.probeRequest = false)
    (hroom : (s.notice w.requester).queue.length + ns.length < 31) {o : AuditOutcome}
    (ho : answerOutcome (s.bay i).recorded (s.owned i) fp = o) :
    ∃ t, exec (.driveCompletion i k.val 0 fp cap) s = .next t ∧
      SweepDone s i w ns u (s.resultIn i o b.state (some fp) none) t ∧ Arbitrated s i u e t := by
  refine ⟨_, (exec_probeAnswer h hentry 0 fp cap).trans ?_,
    settleThenArbiter h hev hlast hmode hroom hreq hout o (some fp) none⟩
  rw [answerProbe_good hc hu hev.slots h.still, ← ho]
  rfl

end

/-! ### What the Bay Controller makes of a good tagged answer (R119) -/

section
variable {s : State} {i : Slot} {fp : Fingerprint} {e : Engine}

theorem taggedIdentity_ready_matched (hb : (s.bay i).state = .ready) (hr : (s.bay i).recorded = some fp)
    (cap : Lba) : (s.setEngine i e).taggedIdentity i fp cap = s.setEngine i e := by
  unfold State.taggedIdentity
  simp [State.resettable, hb, hr]

theorem taggedIdentity_suspect_matched (hb : (s.bay i).state = .suspect) (hr : (s.bay i).recorded = some fp)
    (cap : Lba) : (s.setEngine i e).taggedIdentity i fp cap =
      (s.setEngine i e).setBay i { s.bay i with state := .ready, presented := none } := by
  unfold State.taggedIdentity
  simp [State.resettable, hb, hr]

theorem taggedIdentity_ready_foreign (hb : (s.bay i).state = .ready) (hr : (s.bay i).recorded ≠ some fp)
    (ho : (s.slot i).owner.isSome) (cap : Lba) :
    (s.setEngine i e).taggedIdentity i fp cap = (s.setEngine i e).becomeSuspect i fp cap := by
  unfold State.taggedIdentity
  simp [State.resettable, State.owned, hb, hr, ho]

theorem taggedIdentity_suspect_foreign (hb : (s.bay i).state = .suspect) (hr : (s.bay i).recorded ≠ some fp)
    (ho : (s.slot i).owner.isSome) (cap : Lba) : (s.setEngine i e).taggedIdentity i fp cap =
      (s.setEngine i e).setBay i { s.bay i with presented := some fp, capacity := some cap } := by
  unfold State.taggedIdentity
  simp [State.resettable, State.owned, hb, hr, ho]

theorem taggedIdentity_unowned (hb : (s.bay i).state = .ready ∨ (s.bay i).state = .suspect)
    (hr : (s.bay i).recorded ≠ some fp) (ho : (s.slot i).owner = none) (cap : Lba) :
    (s.setEngine i e).taggedIdentity i fp cap = (s.setEngine i e).setBay i
      { s.bay i with state := .ready, recorded := some fp, presented := none, capacity := some cap } := by
  have hres : (s.setEngine i e).resettable i = true := (Bay.resettable_iff s i).2 hb
  unfold State.taggedIdentity
  simp [hres, State.owned, State.becomeReady, hr, ho]

end

theorem answerOutcome_matched {r : Option Fingerprint} {fp : Fingerprint} (h : r = some fp) (owned : Bool) :
    answerOutcome r owned fp = .matched :=
  if_pos h

theorem answerOutcome_swapped {r : Option Fingerprint} {fp : Fingerprint} (h : r ≠ some fp) {owned : Bool}
    (ho : owned = true) : answerOutcome r owned fp = .swapped :=
  (if_neg h).trans (if_pos ho)

theorem answerOutcome_newDrive {r : Option Fingerprint} {fp : Fingerprint} (h : r ≠ some fp) {owned : Bool}
    (ho : owned = false) : answerOutcome r owned fp = .newDrive :=
  (if_neg h).trans (if_neg (by rw [ho]; exact Bool.false_ne_true))

end Sys2Proof.Machine
end

section
/-! Where the result of a probe goes after each of the events that end it, and O58. -/

namespace Sys2Proof.Machine

/-! ### An answered probe at the last slot (R59, R119, R135) -/

section
variable {s v t : State} {i : Slot} {w : SweepRun} {b : Bay} {e : Engine} {ns : List Notice}
  {frames : Node → List NodeFrame} {r : AuditResult}

theorem SweepDone.bay_eq (h : SweepDone s i w ns v r t) (hev : BayEvent s i v b e ns frames) : t.bay i = b := by
  rw [← hev.bay]
  unfold State.bay
  rw [h.bays]

theorem SweepDone.port_unsent (h : SweepDone s i w ns v r t) (hev : BayEvent s i v b e ns frames) {n : Node}
    (hup : (s.port n).state = .up) : (t.port n).unsent = (s.port n).unsent ++ frames n := by
  rw [← hev.port n hup]
  unfold State.port
  rw [h.ports]

theorem SweepDone.partner_queue (h : SweepDone s i w ns v r t) (hev : BayEvent s i v b e ns frames)
    (hon : (s.notice w.requester.partner).on = true) (hmask : (s.notice w.requester.partner).mask = 0)
    (hlen : (s.notice w.requester.partner).queue.length < 32) :
    (t.notice w.requester.partner).queue = (s.notice w.requester.partner).queue ++ ns := by
  rw [h.partner, hev.told, (pushes_queue hev.few hon hmask).2.2, if_pos hlen]

/-- R55, R56: what the arbiter leaves at a bay that is READY or SUSPECT with the engine `e`. -/
theorem Arbitrated.served {e' eReady eSuspect : Engine} (h : Arbitrated s i v e' t) (hbay : v.bay i = b)
    (hready : b.state = .ready → e' = eReady) (hsuspect : b.state = .suspect → e' = eSuspect) :
    (b.state = .ready → s.Serves i eReady [] t) ∧
      (b.state = .suspect → t.driveOut = s.driveOut ∧ t.engine i = eSuspect) := by
  subst hbay
  refine ⟨fun hb => hready hb ▸ h.ready hb, fun hb => ?_⟩
  obtain ⟨hengine, hout⟩ := h.closed (by rw [hb]; decide)
  exact ⟨hout, hengine.trans (hsuspect hb)⟩

end

/-! ### A probe that a removal or a link reset ends (R116, R120, R134) -/

/-- The record of a sweep that has placed one more result (R132). -/
def SweepRun.placed (w : SweepRun) : SweepRun := { w with issued := satInc w.issued }

/-- An event of the bay has ended the probe with the result `r`: the bay as the event leaves it, and the three
places the sweep can come to (R132, R137, R139). -/
structure ProbeEnded (s : State) (i : Slot) (w : SweepRun) (b : BayState) (e : Engine) (ns : List Notice)
    (frames : Node → List NodeFrame) (r : AuditResult) (t : State) : Prop where
  bay : (t.bay i).state = b
  slots : t.slots = s.slots
  eng : t.engine i = e
  port : ∀ n, (s.port n).state = .up → (t.port n).unsent = (s.port n).unsent ++ frames n
  done : (s.notice w.requester).queue.length + ns.length < 31 → w.last = i → w.mode ≠ .cyclic →
    t.sweep = { s.sweep with
      state := .idle, current := none, probe := none, holder := none, run := some w.placed
      table := putAt s.sweep.table i (some r), ended := some (.done, s.now) } ∧
    (t.notice w.requester).queue = (s.notice w.requester).queue ++ ns ++ [r.notice, s.doneNotice w]
  paused : (s.notice w.requester).queue.length + ns.length < 32 → w.last ≠ i → w.mode = .stepped →
    t.sweep = { s.sweep with
      state := .pausedStep, current := some (i + 1), probe := none, holder := none, run := some w.placed
      table := putAt s.sweep.table i (some r) } ∧
    (t.notice w.requester).queue = (s.notice w.requester).queue ++ ns ++ [r.notice]
  full : 32 ≤ (s.notice w.requester).queue.length + ns.length →
    t.sweep = { s.sweep with
      state := .pausedFull, probe := none, holder := some r, table := putAt s.sweep.table i (some r) } ∧
    (t.notice w.requester).queue = (s.notice w.requester).queue ++
      if (s.notice w.requester).queue.length < 32 then ns else []

section
variable {s v t : State} {i : Slot} {w : SweepRun} {e : Engine} {ns : List Notice} {frames : Node → List NodeFrame}

/-- R134, R137: the result of a probe whose bay needs none any more. -/
theorem settleProbe_ended {b : Bay} (h : Probing s i w) (hev : BayEvent s i v b e ns frames)
    (hone : v.outcomeAtOnce i ≠ none) (o : AuditOutcome) :
    ProbeEnded s i w b.state e ns frames (s.resultIn i o b.state none none) (settleProbe i o none none v) := by
  obtain ⟨hon, hmask, hqueue⟩ := pushes_queue hev.few h.on h.mask
  rw [← hev.told] at hon hmask hqueue
  have hstands := settleProbe_stands o none none hone
  obtain ⟨hdone, hpaused, hfull⟩ := settleProbe_places (i := i) (o := o) (fp := none) (st := none)
    (by rw [hev.sweep]; exact h.run) h.budget hon hmask rfl rfl _ rfl
  have hlen := congrArg List.length hqueue
  rw [List.length_append] at hlen
  rw [hev.auditResult_eq, hev.sweep, hqueue] at hdone hpaused hfull
  rw [hev.now] at hdone
  generalize settleProbe i o none none v = t at *
  refine ⟨?_, hstands.slots.trans hev.slots, hstands.engine.trans hev.eng, fun n hup => ?_,
    fun hroom hlast hmode => ?_, fun hroom hlast hmode => ?_, fun hno => ?_⟩
  · unfold State.bay
    rw [hstands.bays, ← hev.bay]
    rfl
  · unfold State.port
    rw [hstands.ports]
    exact hev.port n hup
  · rw [if_pos (by omega)] at hdone
    obtain ⟨hsweep, hq, -⟩ := hdone (by simpa using hroom) hlast hmode
    exact ⟨hsweep, hq⟩
  · rw [if_pos (by omega)] at hpaused
    obtain ⟨hsweep, hq, -⟩ := hpaused (by simpa using hroom) hlast hmode
    exact ⟨hsweep, hq⟩
  · obtain ⟨hsweep, hq, -⟩ := hfull (by split <;> simp <;> omega)
    exact ⟨hsweep, hq⟩

theorem ProbeEnded.answered {b : BayState} {r : AuditResult} (h : ProbeEnded s i w b e ns frames r t) (n : Node)
    (id : BitVec 16) (c : Byte) (res : Result) (d : List Byte) :
    ProbeEnded s i w b e ns (fun m => frames m ++ if m = n then [.rsp id c res d] else []) r
      (t.answered n id c res d) :=
  ⟨h.bay, h.slots, h.eng, fun m hup => by rw [answered_unsent, h.port m hup, List.append_assoc], h.done, h.paused,
    h.full⟩

/-- R116: a removal at a slot neither HANDING nor DRAINING, whose probe is ABSENT. -/
theorem exec_removal_probing (h : Probing s i w) (hd : (s.bay i).debounce = some s.now)
    (hin : (s.bay i).input = false) (hs : (s.bay i).state ≠ .empty) :
    exec (.removal i) s = .next (settleProbe i .absent none none (s.emptyBay i)) := by
  have hslot : (s.emptyBay i).slot i = s.slot i := (congrArg (fun u => State.slot u i) (emptyBay_spec s i).frame :)
  obtain ⟨hhanding, hdraining⟩ := h.still
  refine next_due h.running (by simp [State.debounced, hd, hin, hs]) ?_
  unfold remove
  rw [h.probing, handing_off (by rw [hslot]; exact hhanding), drain_off (by rw [hslot]; exact hdraining)]
  rfl

/-- R120, R134: a link reset ends the probe NOT_PROBED. -/
theorem linkReset_probing {c : ResetCause} (hp : s.probing i = true) (hh : (s.slot i).phase ≠ .handing)
    (hs : (s.bay i).state = .ready ∨ (s.bay i).state = .suspect) :
    linkReset i c s = settleProbe i .notProbed none none (s.beginReset i c) := by
  have hphase : ((s.beginReset i c).slot i).phase ≠ .handing := by
    unfold State.slot
    rw [(beginReset_spec s i c).sl]
    exact hh
  unfold linkReset
  rw [if_pos ((Bay.resettable_iff s i).2 hs), hp, handing_off hphase]
  rfl

theorem exec_driveLinkLoss_probing (h : Probing s i w)
    (hs : (s.bay i).state = .ready ∨ (s.bay i).state = .suspect) :
    exec (.driveLinkLoss i) s = .next (settleProbe i .notProbed none none
      ((s.setBay i { s.bay i with linkLosses := satInc (s.bay i).linkLosses }).beginReset i .linkLoss)) := by
  refine next_whenRunning h.running (Eq.trans ?_ (linkReset_probing (by exact h.probing) (by exact h.still.1)
    (by rw [State.setBay_bay_same]; exact hs)))
  unfold driveLinkLoss
  rcases hs with hs | hs <;> simp only [hs]

/-- A link reset that has begun leaves a bay that needs no probe, which ended NOT_PROBED. -/
theorem ResetBegun.probeEnded {b : Bay} {c : ResetCause} (h : Probing s i w)
    (hreset : ResetBegun (s.setBay i b) i c v) :
    ProbeEnded s i w .resetting { s.engine i with tags := [], probeRequest := false } []
      (fun n => cplsFor n i .abortedReset (s.slot i).generation (activeCommands (s.engine i).tags))
      (s.resultIn i .notProbed .resetting none none) (settleProbe i .notProbed none none v) := by
  have hbay : (v.bay i).state = .resetting := by rw [hreset.bay]
  have hended := settleProbe_ended h hreset.bayEvent (by simp [State.outcomeAtOnce, hbay]) .notProbed
  rwa [hbay] at hended

/-- A removal leaves a bay that needs no probe, which ended ABSENT. -/
theorem emptyBay_probeEnded (h : Probing s i w) :
    ProbeEnded s i w .empty { s.engine i with waiting := [], tags := [], probeRequest := false }
      [{ slot := some i, tick := s.now, body := .driveRemoved (s.bay i).state }]
      (fun n => cplsFor n i .driveRemoved (s.slot i).generation
        (activeCommands (s.engine i).tags ++ (s.engine i).waiting))
      (s.resultIn i .absent .empty none none) (settleProbe i .absent none none (s.emptyBay i)) := by
  have hemptied := emptyBay_spec s i
  have hbay : ((s.emptyBay i).bay i).state = .empty := by rw [hemptied.bay]
  have hended := settleProbe_ended h (hemptied.bayEvent (emptyBay_told s i))
    (by simp [State.outcomeAtOnce, hbay]) .absent
  rwa [hbay] at hended

/-- RESET_DRIVE by the owner while a probe is outstanding (R128). -/
theorem exec_resetDrive_probing (h : Probing s i w) {n : Node} (ht : s.Takes n) (hl : s.live n = true)
    (hown : (s.slot i).phase = .owned) (ho : (s.slot i).owner = some n)
    (hs : (s.bay i).state = .ready ∨ (s.bay i).state = .suspect) (id : BitVec 16) :
    exec (.resetDrive n id i) s = .next
      ((settleProbe i .notProbed none none (s.beginReset i .resetDrive)).answered n id 0x29 .done
        (tickItem (s.now + BitVec.ofNat 32 (s.timing.resetLimit * 10)))) := by
  have hreset := beginReset_spec s i .resetDrive
  have hbay : ((s.beginReset i .resetDrive).bay i).state = .resetting := by rw [hreset.bay]
  have hstands := settleProbe_stands .notProbed none none (s := s.beginReset i .resetDrive) (i := i)
    (by simp [State.outcomeAtOnce, hbay])
  refine next_whenUp ht ((if_pos (judgeResetDrive_owner hl hown ho hs)).trans ?_)
  rw [linkReset_probing h.probing h.still.1 hs]
  refine reply_up ?_ _ _ _ _
  unfold State.port
  rw [hstands.ports]
  exact (hreset.port n).1.trans ht.2

end

/-! ### The walk of a CYCLIC sweep (R132, R137) -/

/-- R137: a result is placed in the requester's queue. -/
structure ResultPlaced (s : State) (w : SweepRun) (r : AuditResult) (t : State) : Prop where
  sweep : t.sweep = { s.sweep with
    table := putAt s.sweep.table r.slot (some r), holder := none, state := .probing, run := some w.placed }
  queue : (t.notice w.requester).queue = (s.notice w.requester).queue ++ [r.notice]
  frame : { t with sweep := s.sweep, notices := s.notices } = s

theorem produce_placed {s : State} {w : SweepRun} (hon : (s.notice w.requester).on = true)
    (hlen : (s.notice w.requester).queue.length < 32) (r : AuditResult) :
    ∃ t, s.produce w r = (t, true) ∧ ResultPlaced s w r t := by
  have hmarked : ((s.tableResult r).markResult w.requester r).notice w.requester =
      { s.notice w.requester with summary := (s.notice w.requester).summary ||| kindBit r.notice.body } :=
    (State.setNotice_notice _ _ _ _).trans (if_pos rfl)
  have hsweep : ((s.tableResult r).markResult w.requester r).sweep =
      { s.sweep with table := putAt s.sweep.table r.slot (some r) } := rfl
  have hframe : { (s.tableResult r).markResult w.requester r with sweep := s.sweep, notices := s.notices } = s := rfl
  unfold State.produce
  dsimp only
  generalize (s.tableResult r).markResult w.requester r = v at hmarked hsweep hframe ⊢
  have hplace : (v.notice w.requester).hasPlace = true := by simp [hmarked, NoticeQueue.hasPlace, hon, hlen]
  rw [if_pos hplace]
  refine ⟨_, rfl, ?_, ?_, hframe⟩
  · show ({ v.sweep with holder := _, state := _, run := _ } : Sweep) = _
    rw [hsweep]
    rfl
  · refine (congrArg NoticeQueue.queue ((State.setNotice_notice _ _ _ _).trans (if_pos rfl)) :).trans ?_
    rw [hmarked]

/-- R132: the walk goes on at a slot that needs a probe. -/
theorem walkOn_handles {s : State} {w : SweepRun} {cur next : Slot} {pass : Count16} (hw : s.sweep.run = some w)
    (ha : advanceOf w cur = .handles next pass) (ho : s.outcomeAtOnce next = none) (k : Nat) :
    walkOn (k + 1) cur s = handleSlot next (s.setSweep { s.sweep with run := some { w with pass := pass } }) := by
  have hone : ∀ x, (s.setSweep x).outcomeAtOnce next = none := fun _ => ho
  have hagain : ∀ x y, ((s.setSweep x).setSweep y).outcomeAtOnce next = none := fun _ _ => ho
  unfold walkOn handleSlot
  rw [hw]
  dsimp only
  rw [ha]
  dsimp only
  rw [hone, hagain]
  rfl

/-- R132: a CYCLIC sweep without a budget begins a new pass behind its last slot. -/
theorem advanceOf_cyclic {w : SweepRun} {i : Slot} (hbudget : w.budget = 0) (hmode : w.mode = .cyclic)
    (hlast : w.last = i) : advanceOf w i = .handles w.first (satInc w.pass) := by
  simp [advanceOf, hbudget, hmode, hlast]

/-- R134: a result of the current slot that finds its place lets the walk go on. -/
theorem settleProbe_placed {s : State} {i : Slot} {w : SweepRun} (hw : s.sweep.run = some w)
    (hon : (s.notice w.requester).on = true) (hlen : (s.notice w.requester).queue.length < 32) (o : AuditOutcome)
    (fp : Option Fingerprint) (st : Option (BitVec 16)) :
    ∃ t, ResultPlaced (s.setSweep { s.sweep with probe := none }) w (s.auditResult i o fp st) t ∧
      settleProbe i o fp st s = walkOn 33 i t := by
  obtain ⟨t, hproduce, hplaced⟩ := produce_placed (s := s.setSweep { s.sweep with probe := none }) hon hlen
    (s.auditResult i o fp st)
  refine ⟨t, hplaced, ?_⟩
  have hrun : (s.setSweep { s.sweep with probe := none }).sweep.run = some w := hw
  unfold settleProbe settle
  dsimp only
  rw [hrun]
  dsimp only
  rw [show (s.setSweep { s.sweep with probe := none }).auditResult i o fp st = s.auditResult i o fp st from rfl,
    hproduce]
  rfl

theorem ResultPlaced.outcome {s t : State} {w : SweepRun} {r : AuditResult} (h : ResultPlaced s w r t) (j : Slot) :
    t.outcomeAtOnce j = s.outcomeAtOnce j :=
  (congrArg (fun u => State.outcomeAtOnce u j) h.frame :)

/-- R132: the result finds its place, and the walk goes on at a slot that needs a probe. -/
theorem settleProbe_walks {s : State} {i next : Slot} {w : SweepRun} {pass : Count16} (hw : s.sweep.run = some w)
    (hon : (s.notice w.requester).on = true) (hlen : (s.notice w.requester).queue.length < 32)
    (ha : advanceOf w.placed i = .handles next pass) (hone : s.outcomeAtOnce next = none) (o : AuditOutcome)
    (fp : Option Fingerprint) (st : Option (BitVec 16)) :
    ∃ t, ResultPlaced (s.setSweep { s.sweep with probe := none }) w (s.auditResult i o fp st) t ∧
      settleProbe i o fp st s =
        handleSlot next (t.setSweep { t.sweep with run := some { w.placed with pass := pass } }) := by
  obtain ⟨t, hplaced, hwalk⟩ := settleProbe_placed (i := i) hw hon hlen o fp st
  exact ⟨t, hplaced, hwalk.trans (walkOn_handles (by rw [hplaced.sweep]) ha ((hplaced.outcome next).trans hone) 32)⟩

/-! ### The obligation -/

/-- Settles O58: what the Bay Controller makes of the event, then where the result goes (`settleProbe_done`,
`settleProbe_ended`, `settleProbe_placed`), then the arbiter (`settleThenArbiter`) or the walk (`walkOn_handles`). -/
theorem probeIsSettledByLimitOrAnswer : Obligations.ProbeIsSettledByLimitOrAnswer := by
  refine ⟨?_, ?_, ?_⟩
  · intro s i k d w hrun hs hc hp hw hlast hmode hbudget hon hmask hlen hstill hreq e he served hserved result hresult
      settled hsettled
    have hprob : Probing s i w := ⟨hrun, probing_of hs hc hp, hw, hbudget, hon, hmask, hstill⟩
    replace he : e = (s.engine i).free k := he
    subst he
    obtain rfl : result = fun o fp => s.resultIn i o (s.bay i).state fp none := by
      funext o fp
      exact hresult o fp
    have hquiet : ∀ {o : AuditOutcome} {fp : Option Fingerprint} {st : Option (BitVec 16)} {v t : State},
        SweepDone s i w [] v (s.resultIn i o (s.bay i).state fp st) t → v.slots = s.slots → v.bays = s.bays →
        v.ports = s.ports → settled (s.resultIn i o (s.bay i).state fp st) t := by
      intro o fp st v t h hslots hbays hports
      refine (hsettled _ _).2 ⟨h.state, h.ended, h.table, h.current, h.probe, h.holder, ?_, h.slots.trans hslots,
        h.bays.trans hbays, h.ports.trans hports⟩
      have hqueue := h.queue
      rw [List.append_nil] at hqueue
      exact hqueue
    have hserve : ∀ {v t : State} {b : Bay} {e' : Engine}, t.bay i = b → Arbitrated s i v e' t → v.bay i = b →
        (b.state = .ready → e' = (s.engine i).free k) →
        (b.state = .suspect → e' = { (s.engine i).free k with
          waiting := if (s.bay i).state = .ready then [] else ((s.engine i).free k).waiting }) → served t := by
      intro v t b e' htbay h hvbay hready hsuspect
      rw [hserved, htbay]
      exact h.served hvbay hready hsuspect
    have hfreed := BayEvent.setEngine s i ((s.engine i).free k)
    refine ⟨fun hd => ?_, fun fp cap hb hr hcap hentry => ?_, fun st fp cap hbad hentry => ?_,
      fun fp cap hcap hentry judged hjudged => ?_⟩
    · subst hd
      obtain ⟨hdone, hframe⟩ := settleProbe_done hprob (BayEvent.setEngine s i ((s.engine i).unexpect k)) hlast hmode
        hlen .noResponse none none
      refine ⟨_, exec_probeDeadline hrun hs hc hp, hquiet hdone rfl rfl rfl, ?_⟩
      exact ((congrArg (fun u => State.engine u i) hframe :) : _ = _).trans (State.setEngine_engine_same s i _)
    · obtain ⟨t, hexec, hdone, harb⟩ := probeAnswer_settles hprob hentry hlast hmode hcap
        (taggedIdentity_ready_matched hb hr cap) hfreed rfl hreq hlen
        (answerOutcome_matched hr _)
      exact ⟨t, hexec, hquiet hdone rfl rfl rfl, hserve (hdone.bay_eq hfreed) harb rfl (fun _ => rfl)
        (fun hsus => absurd (hb.symm.trans hsus) (by decide))⟩
    · obtain ⟨hdone, harb⟩ := settleThenArbiter hprob hfreed hlast hmode hlen hreq rfl .probeFailed
        (if st = 0 then some fp else none) (some st)
      rw [← answerProbe_failed hbad fp] at hdone harb
      exact ⟨_, exec_probeAnswer hprob hentry st fp cap, hquiet hdone rfl rfl rfl, harb.ready, harb.closed⟩
    · have key : ∀ {o : AuditOutcome} {u : State} {b : Bay} {e' : Engine} {ns : List Notice}
          {frames : Node → List NodeFrame},
          (s.setEngine i ((s.engine i).free k)).taggedIdentity i fp cap = u → BayEvent s i u b e' ns frames →
          u.driveOut = s.driveOut → e'.probeRequest = false →
          (s.notice w.requester).queue.length + ns.length < 31 →
          answerOutcome (s.bay i).recorded (s.owned i) fp = o →
          (b.state = .ready → e' = (s.engine i).free k) →
          (b.state = .suspect → e' = { (s.engine i).free k with
            waiting := if (s.bay i).state = .ready then [] else ((s.engine i).free k).waiting }) →
          judged (s.resultIn i o b.state (some fp) none) ns b frames := by
        intro o u b e' ns frames hu hev hout hreq' hroom ho hready hsuspect
        obtain ⟨t, hexec, hdone, harb⟩ := probeAnswer_settles hprob hentry hlast hmode hcap hu hev hout hreq' hroom ho
        have hbay := hdone.bay_eq hev
        refine (hjudged _ _ _ _).2 ⟨t, hexec, hdone.state, hdone.ended, hdone.table, hdone.slots.trans hev.slots, hbay,
          hserve hbay harb hev.bay hready hsuspect, fun n hup => hdone.port_unsent hev hup, ?_, hdone.queue⟩
        rintro _ rfl hxon hxmask hxlen
        exact hdone.partner_queue hev hxon hxmask hxlen
      have hroom : (s.notice w.requester).queue.length + ([] : List Notice).length < 31 := hlen
      have hforeign : ∀ {x : Fingerprint}, (s.bay i).recorded = some x → x ≠ fp → (s.bay i).recorded ≠ some fp :=
        fun hr hne h => hne (Option.some.inj (hr.symm.trans h))
      refine ⟨fun x hb hr hne ho hlen' => ?_, fun hb hr => ?_, fun x hb hr hne ho => ?_, fun hb hr ho => ?_⟩
      · have hsus := becomeSuspect_spec (s.setEngine i ((s.engine i).free k)) i fp cap
        exact key (taggedIdentity_ready_foreign hb (hforeign hr hne) ho cap) hsus.bayEvent
          (congrArg State.driveOut hsus.frame :) hreq (Nat.succ_lt_succ hlen')
          (answerOutcome_swapped (hforeign hr hne) ho) (fun h => BayState.noConfusion h)
          (fun _ => by rw [if_pos hb])
      · exact key (taggedIdentity_suspect_matched hb hr cap) (BayEvent.setBay s i _ _) rfl hreq hroom
          (answerOutcome_matched hr _) (fun _ => rfl) (fun h => BayState.noConfusion h)
      · exact key (taggedIdentity_suspect_foreign hb (hforeign hr hne) ho cap) (BayEvent.setBay s i _ _) rfl hreq hroom
          (answerOutcome_swapped (hforeign hr hne) ho) (fun _ => rfl) (fun _ => by rw [if_neg (by rw [hb]; decide)])
      · exact key (taggedIdentity_unowned hb hr ho cap) (BayEvent.setBay s i _ _) rfl hreq hroom
          (answerOutcome_newDrive hr (by unfold State.owned; rw [ho]; rfl)) (fun _ => rfl)
          (fun h => BayState.noConfusion h)
  · intro s i p w hrun hs hc hp hw hbudget hon hmask hstill hb ended hended aborted haborted
    have hprob : Probing s i w := ⟨hrun, probing_of hs hc hp, hw, hbudget, hon, hmask, hstill⟩
    obtain rfl : aborted = fun n => _ := funext haborted
    have key : ∀ {c : Instr} {o : AuditOutcome} {b : BayState} {waiting : List Command} {ns : List Notice}
        {frames : Node → List NodeFrame} {t : State}, exec c s = .next t →
        ProbeEnded s i w b { s.engine i with waiting := waiting, tags := [], probeRequest := false } ns frames
          (s.resultIn i o b none none) t → ended c o b waiting ns frames := by
      intro c o b waiting ns frames t hexec h
      rw [hended]
      rintro _ _ _ _ rfl rfl rfl rfl
      exact ⟨t, hexec, h.bay, h.slots, h.eng, h.port, h.done, h.paused, h.full⟩
    refine ⟨fun hd hin => key (exec_removal_probing hprob hd hin (by rcases hb with hb | hb <;> simp [hb]))
        (emptyBay_probeEnded hprob),
      key (exec_driveLinkLoss_probing hprob hb) (ResetBegun.probeEnded hprob (beginReset_spec _ i .linkLoss)),
      fun n id ht hl hown ho => key (exec_resetDrive_probing hprob ht hl hown ho hb id) ?_⟩
    have hreset := beginReset_spec s i .resetDrive
    exact (ResetBegun.probeEnded (b := s.bay i) hprob (by rw [setBay_self]; exact hreset)).answered n id _ _ _
  · intro s i k k' w hrun hs hc hp hw hlast hmode hbudget hfirst hon hlen hb hphase hwait hfree
    have hexec := exec_probeDeadline hrun hs hc hp
    have hengine : (s.setEngine i ((s.engine i).unexpect k)).engine w.first = s.engine w.first :=
      (State.setEngine_engine s i _ _).trans (if_neg hfirst)
    obtain ⟨z, hplaced, hwalk⟩ := settleProbe_walks (s := s.setEngine i ((s.engine i).unexpect k)) (i := i)
      hw hon hlen (advanceOf_cyclic hbudget hmode hlast) (outcomeAtOnce_none hb hphase) .noResponse none none
    have hzbay : z.bay w.first = s.bay w.first := (congrArg (fun u => State.bay u w.first) hplaced.frame :)
    have hznow : z.now = s.now := (congrArg State.now hplaced.frame :)
    have hzengine : z.engine w.first = s.engine w.first :=
      (congrArg (fun u => State.engine u w.first) hplaced.frame :).trans hengine
    have hone : z.outcomeAtOnce w.first = none := (hplaced.outcome w.first).trans (outcomeAtOnce_none hb hphase)
    have hprobes := handleSlot_probes (s := z.setSweep { z.sweep with
        run := some { w.placed with pass := satInc w.placed.pass } }) (i := w.first) (k := k')
      (by rw [State.setSweep_bay, hzbay]; exact hb) hone
      (by rw [State.setSweep_engine, hzengine]; exact hwait) (by rw [State.setSweep_engine, hzengine]; exact hfree)
    refine ⟨_, hexec.trans (congrArg _ (hwalk.trans hprobes)), rfl, rfl, ?_, rfl, ?_, hplaced.queue⟩
    · rw [← hznow]
      rfl
    · rw [← hzengine]
      exact State.setEngine_engine_same _ _ _

end Sys2Proof.Machine
end

section
/-! The store, the windows, the node ports and the timing settings along every step (R68, R76, R80, R150, R154,
R159 to R161). -/

namespace Sys2Proof.Machine

/-- The store, the windows with their owners, the ports and the timing of `t` are in order where those of `s`
are. -/
structure KeepsTables (s t : State) : Prop where
  store : StoreOk s → StoreOk t
  windows : WindowsOk s → WindowsOk t
  ports : PortsOk s → PortsOk t
  timing : TimingOk s → TimingOk t
  owned : WindowsOwned s → WindowsOwned t

theorem Keeps.tables {s t : State} (h : Keeps s t) : KeepsTables s t :=
  ⟨h.store, h.windows, h.ports, h.timing, h.owned⟩

theorem KeepsTables.trans {s t u : State} (h : KeepsTables s t) (k : KeepsTables t u) : KeepsTables s u :=
  ⟨k.store ∘ h.store, k.windows ∘ h.windows, k.ports ∘ h.ports, k.timing ∘ h.timing, k.owned ∘ h.owned⟩

/-- An event of power or reset, and the links at work, move no window, no slot and no setting. -/
theorem KeepsTables.of_frame {s t : State} (hstore : StoreOk s → StoreOk t) (hports : PortsOk s → PortsOk t)
    (hwindows : t.windows = s.windows) (hslots : t.slots = s.slots) (htiming : t.timing = s.timing) :
    KeepsTables s t where
  store := hstore
  windows h k := by
    unfold State.window
    rw [hwindows]
    exact h k
  ports := hports
  timing h := by
    unfold TimingOk
    rw [htiming]
    exact h
  owned h k := by
    unfold State.window State.slot
    rw [hwindows, hslots]
    exact h k

/-! ### Power and the reset input (R158, R160, R163) -/

/-- R160: what becomes of a write in progress leaves a READY store with nothing queued. -/
theorem resolveWrite_storeOk (s : State) : StoreOk s.resolveWrite := by
  have hready : ∀ st : Store, st.mode = .ready → st.queue = [] → st.Ok := fun st hmode hqueue => by
    simp [Store.Ok, hmode, hqueue]
  unfold State.resolveWrite
  split
  · dsimp only [StoreOk]
    split <;> exact hready _ rfl rfl
  · exact hready _ rfl rfl

theorem KeepsTables.resolveWrite (s : State) : KeepsTables s s.resolveWrite := by
  have hframe : s.resolveWrite.ports = s.ports ∧ s.resolveWrite.windows = s.windows ∧
      s.resolveWrite.timing = s.timing := by
    unfold State.resolveWrite
    split <;> exact ⟨rfl, rfl, rfl⟩
  obtain ⟨hports, hwindows, htiming⟩ := hframe
  refine .of_frame (fun _ => resolveWrite_storeOk s) (fun h n => ?_) hwindows (resolveWrite_slots s) htiming
  unfold State.port
  rw [hports]
  exact h n

/-- R163: a silenced port has nothing to send and awaits nothing. -/
theorem KeepsTables.silence (s : State) : KeepsTables s s.silence :=
  .of_frame id (fun _ n => by cases n <;> exact fun _ => ⟨rfl, rfl⟩) rfl rfl rfl

theorem KeepsTables.holdLinks (s : State) : KeepsTables s s.holdLinks := .of_frame id id rfl rfl rfl

/-- R163: what start-up leaves is in order whatever was before; no window is ACTIVE. -/
theorem KeepsTables.startUp (s t : State) : KeepsTables s (startUp t) := by
  obtain ⟨-, -, -, hwindow, -, hport, htiming⟩ := initialRecords_ok
  refine ⟨fun _ => resolveWrite_storeOk t, fun _ k => startUp_window t k ▸ hwindow,
    fun _ n => startUp_port t n ▸ hport, fun _ => htiming, fun _ k a ha => ?_⟩
  rw [startUp_window] at ha
  cases ha

theorem KeepsTables.assertReset (s : State) : KeepsTables s (assertReset s) := by
  have hinput : KeepsTables s (s.setResetInput true) := .of_frame id id rfl rfl rfl
  unfold Machine.assertReset
  dsimp only
  split
  · exact ((hinput.trans (.resolveWrite _)).trans (.silence _)).trans (.holdLinks _)
  · exact hinput

theorem KeepsTables.releaseReset (s : State) : KeepsTables s (releaseReset s) := by
  unfold Machine.releaseReset
  dsimp only
  split
  · exact .startUp s _
  · exact .of_frame id id rfl rfl rfl

theorem KeepsTables.turnOn (s : State) : KeepsTables s (turnOn s) := by
  unfold Machine.turnOn
  dsimp only
  split
  · exact (KeepsTables.startUp s _).trans (.holdLinks _)
  · exact .startUp s _

theorem KeepsTables.turnOff (s : State) : KeepsTables s (turnOff s) := by
  unfold Machine.turnOff
  split
  · exact ((KeepsTables.resolveWrite s).trans (.silence _)).trans (.of_frame id id rfl rfl rfl)
  · exact .of_frame id id rfl rfl rfl

/-! ### Every step -/

theorem exec_keepsTables {c : Instr} {s t : State} (h : exec c s = .next t) : KeepsTables s t := by
  cases hc : c.ofPower with
  | false => exact (exec_keeps hc h).tables
  | true =>
    cases c with
    | resetAssert => cases h; exact .assertReset s
    | resetRelease => cases h; exact .releaseReset s
    | powerOn => cases h; exact .turnOn s
    | powerFail => cases h; exact .turnOff s
    | _ => cases hc

/-- R154: a port with nothing to send has nothing to send after its link has carried a frame away. -/
theorem Port.sendOne_ok {p : Port} (h : p.Ok) : p.sendOne.Ok := by
  intro hdown
  obtain ⟨hawaiting, hunsent⟩ := h hdown
  exact ⟨hawaiting, by rw [Port.sendOne, hunsent]; rfl⟩

theorem KeepsTables.idle (s : State) : KeepsTables s (idle s) := by
  unfold Machine.idle Machine.whenRunning
  split
  · refine .of_frame id (fun h n => ?_) rfl rfl rfl
    cases n with
    | a => exact Port.sendOne_ok (h .a)
    | b => exact Port.sendOne_ok (h .b)
  · exact .of_frame id id rfl rfl rfl

theorem step_keepsTables {s t : State} (h : step s = .next t) : KeepsTables s t := by
  unfold step at h
  split at h
  · cases h
    exact .idle s
  · rename_i c rest _
    have htaken : KeepsTables s { s with pending := rest } := .of_frame id id rfl rfl rfl
    exact htaken.trans (exec_keepsTables h)

/-- Settles O9: each command keeps the tables by the operations it is made of (`exec_keeps`), where a commit
clears the windows of its slot as it sets the owner; start-up makes them anew, and the idle step only takes
frames away. -/
theorem stepKeepsStoreWindowsPortsTiming : Obligations.StepKeepsStoreWindowsPortsTiming := by
  refine ⟨fun s t h => ?_, fun s t h => (step_keepsTables h).owned⟩
  obtain ⟨hstore, hwindows, hports, htiming, -⟩ := step_keepsTables h
  exact ⟨hstore, hwindows, hports, htiming⟩

end Sys2Proof.Machine
end

section
/-! The Window Table's requests (R69, R71): SET_WINDOW and CLEAR_WINDOW, taken and refused. -/

namespace Sys2Proof.Machine

/-! ### The operands (R165) -/

theorem windowKindOf_windowKindCode (kind : WindowKind) :
    windowKindOf (BitVec.ofNat 8 (windowKindCode kind)) = some kind := by
  cases kind <;> rfl

theorem windowKindOf_none {b : Byte} (h : b = 0 ∨ 3 < b.toNat) : windowKindOf b = none := by
  unfold windowKindOf
  rw [if_neg, if_neg, if_neg] <;> (rintro rfl; revert h; decide)

theorem windowIndexOf_ofNat (k : Fin 4) : windowIndexOf (BitVec.ofNat 8 k.val) = some k := by
  fin_cases k <;> rfl

theorem windowIndexOf_none {b : Byte} (h : 3 < b.toNat) : windowIndexOf b = none := dif_neg (by omega)

section
variable {s : State} {n : Node} {k : Fin 4} {i : Slot} {a : ActiveWindow}

/-! ### The order of R69 and R71 -/

theorem taking_iff (p : Phase) : p.taking = true ↔ p = .claimed ∨ p = .draining := by
  cases p <;> simp [Phase.taking]

theorem judgeClearWindow_notOwner (h : (s.slot a.slot).owner ≠ some n) : judgeClearWindow n a s = .notOwner :=
  if_pos h

theorem judgeClearWindow_wrongState (ho : (s.slot a.slot).owner = some n)
    (hp : (s.slot a.slot).phase = .claimed ∨ (s.slot a.slot).phase = .draining) :
    judgeClearWindow n a s = .wrongState :=
  (if_neg (not_not_intro ho)).trans (if_pos ((taking_iff _).2 hp))

theorem judgeClearWindow_done (ho : (s.slot a.slot).owner = some n) (hc : (s.slot a.slot).phase ≠ .claimed)
    (hd : (s.slot a.slot).phase ≠ .draining) : judgeClearWindow n a s = .done :=
  (if_neg (not_not_intro ho)).trans (if_neg fun hp => ((taking_iff _).1 hp).elim hc hd)

theorem judgeSetWindow_noLease (h : s.live n = false) : judgeSetWindow n k i s = .noLease := by
  simp [judgeSetWindow, h]

/-- Any phase but OWNED and UNOWNED is one in which the slot changes hands. -/
theorem judgeSetWindow_wrongState (h : s.live n = true) (ho : (s.slot i).phase ≠ .owned)
    (hu : (s.slot i).phase ≠ .unowned) : judgeSetWindow n k i s = .wrongState := by
  cases hp : (s.slot i).phase <;> simp_all [judgeSetWindow, Phase.taking]

theorem judgeSetWindow_notOwner (h : s.live n = true)
    (hp : (s.slot i).phase = .unowned ∨ (s.slot i).phase = .owned ∧ (s.slot i).owner ≠ some n) :
    judgeSetWindow n k i s = .notOwner := by
  rcases hp with hp | ⟨hp, ho⟩
  · simp [judgeSetWindow, Phase.taking, h, hp]
  · simp [judgeSetWindow, Phase.taking, h, hp, ho]

theorem judgeSetWindow_unused (h : s.live n = true) (hp : (s.slot i).phase = .owned)
    (ho : (s.slot i).owner = some n) (hw : (s.window k).active = none) : judgeSetWindow n k i s = .done := by
  simp [judgeSetWindow, Phase.taking, h, hp, ho, hw]

/-- R69: an ACTIVE entry is replaced by who may clear it (R71). -/
theorem judgeSetWindow_active (h : s.live n = true) (hp : (s.slot i).phase = .owned)
    (ho : (s.slot i).owner = some n) (hw : (s.window k).active = some a) :
    judgeSetWindow n k i s = judgeClearWindow n a s := by
  simp [judgeSetWindow, judgeClearWindow, Phase.taking, h, hp, ho, hw]

/-! ### SET_WINDOW -/

theorem setWindow_judged (ht : s.Takes n) {id : BitVec 16} {first last : Lba} {kind : WindowKind} {r : Result}
    (hrange : first.toNat ≤ last.toNat) (hj : judgeSetWindow n k i s = r) (hr : r ≠ .done) :
    exec (.setWindow n id (BitVec.ofNat 8 k.val) i first last (BitVec.ofNat 8 (windowKindCode kind))) s =
      .next (s.answered n id 0x40 r []) := by
  refine next_whenUp ht ?_
  rw [windowIndexOf_ofNat, windowKindOf_windowKindCode]
  dsimp only
  rw [if_neg (Nat.not_lt.2 hrange), hj, if_neg hr]
  exact reply_up ht.2 _ _ _ _

theorem setWindow_taken (ht : s.Takes n) {id : BitVec 16} {first last : Lba} {kind : WindowKind} {w : Window}
    (hrange : first.toNat ≤ last.toNat) (hj : judgeSetWindow n k i s = .done)
    (hw : w = { active := some { slot := i, first := first, last := last, kind := kind, setBy := n
                                 setTick := s.now }
                hits := 0, lastClear := none }) :
    exec (.setWindow n id (BitVec.ofNat 8 k.val) i first last (BitVec.ofNat 8 (windowKindCode kind))) s =
      .next ((s.setWindow k w).answered n id 0x40 .done (windowItem w ++ previousItem (s.window k))) := by
  subst hw
  refine next_whenUp ht ?_
  rw [windowIndexOf_ofNat, windowKindOf_windowKindCode]
  dsimp only
  rw [if_neg (Nat.not_lt.2 hrange), hj, if_pos rfl]
  exact reply_up (s := s.setWindow k _) ht.2 _ _ _ _

/-- R69: an index, a kind or a range out of order is refused before anything is judged. -/
theorem setWindow_badRequest (ht : s.Takes n) {id : BitVec 16} {index kind : Byte} {first last : Lba}
    (h : 3 < index.toNat ∨ kind = 0 ∨ 3 < kind.toNat ∨ last.toNat < first.toNat) :
    exec (.setWindow n id index i first last kind) s = .next (s.answered n id 0x40 .badRequest []) := by
  refine next_whenUp ht ?_
  rw [← reply_up ht.2]
  split
  · rename_i k w hindex hkind
    refine if_pos ?_
    by_contra hrange
    rcases h with h | h | h | h
    · simp [windowIndexOf_none h] at hindex
    · simp [windowKindOf_none (.inl h)] at hkind
    · simp [windowKindOf_none (.inr h)] at hkind
    · exact hrange h
  · rfl

/-! ### CLEAR_WINDOW -/

/-- CLEAR_WINDOW with an index of the table, from a live node. -/
theorem exec_clearWindow (ht : s.Takes n) (hlive : s.live n = true) {id : BitVec 16} {t : State}
    (h : clearWindow n id k s = t) : exec (.clearWindow n id (BitVec.ofNat 8 k.val)) s = .next t := by
  refine next_whenUp ht ?_
  rw [windowIndexOf_ofNat]
  exact (if_pos hlive).trans h

theorem clearWindow_judged (ht : s.Takes n) (hlive : s.live n = true) {id : BitVec 16} {r : Result}
    (hw : (s.window k).active = some a) (hj : judgeClearWindow n a s = r) (hr : r ≠ .done) :
    exec (.clearWindow n id (BitVec.ofNat 8 k.val)) s = .next (s.answered n id 0x41 r []) := by
  refine exec_clearWindow ht hlive ?_
  unfold clearWindow
  dsimp only
  rw [hw]
  dsimp only
  rw [hj, if_neg hr]
  exact reply_up ht.2 _ _ _ _

theorem clearWindow_taken (ht : s.Takes n) (hlive : s.live n = true) {id : BitVec 16} {c : LastClear}
    (hw : (s.window k).active = some a) (hj : judgeClearWindow n a s = .done)
    (hc : c = { cause := .request, slot := a.slot, kind := a.kind, first := a.first, last := a.last
                hits := (s.window k).hits }) :
    exec (.clearWindow n id (BitVec.ofNat 8 k.val)) s =
      .next ((s.setWindow k { active := none, hits := 0, lastClear := some c }).answered n id 0x41 .done
        (u8 0 ++ optItem 17 lastClearItem (some c))) := by
  have hclear : (s.window k).clear .request = { active := none, hits := 0, lastClear := some c } := by
    rw [Window.clear, hw, hc]
  refine exec_clearWindow ht hlive ?_
  unfold clearWindow
  dsimp only
  rw [hw]
  dsimp only
  rw [hj, if_pos rfl, hclear]
  exact reply_up (s := s.setWindow k _) ht.2 _ _ _ _

end

/-- Settles O54: SET_WINDOW is judged on its slot and then on the entry it replaces, CLEAR_WINDOW on the
entry alone. -/
theorem windowsAreSetAndCleared : Obligations.WindowsAreSetAndCleared := by
  intro s n id k ht
  refine ⟨fun i first last kind hrange answer hanswer => ?_, fun index i first last kind => setWindow_badRequest ht,
    fun index hindex => next_whenUp ht ?_, fun hlive => next_whenUp ht ?_,
    fun hlive => ⟨fun hnone => exec_clearWindow ht hlive ?_, fun a ha => ⟨fun ho => ?_, fun ho hp => ?_,
      fun ho hcl hdr c hc => ?_⟩⟩⟩
  · have judged : ∀ {r}, judgeSetWindow n k i s = r → r ≠ .done → answer r := fun hj hr =>
      (hanswer _).2 (setWindow_judged ht hrange hj hr)
    refine ⟨fun hlive => judged (judgeSetWindow_noLease hlive) nofun, fun hlive =>
      ⟨fun h1 h2 => judged (judgeSetWindow_wrongState hlive h1 h2) nofun,
        fun hp => judged (judgeSetWindow_notOwner hlive (.inl hp)) nofun,
        fun hp ho => judged (judgeSetWindow_notOwner hlive (.inr ⟨hp, ho⟩)) nofun, fun hp ho => ⟨?_, ?_, ?_⟩⟩⟩
    · intro a ha hother
      exact judged ((judgeSetWindow_active hlive hp ho ha).trans (judgeClearWindow_notOwner hother)) nofun
    · intro a ha hown htaking
      exact judged ((judgeSetWindow_active hlive hp ho ha).trans (judgeClearWindow_wrongState hown htaking)) nofun
    · intro hentry w hw
      refine setWindow_taken ht hrange ?_ hw
      cases ha : (s.window k).active with
      | none => exact judgeSetWindow_unused hlive hp ho ha
      | some a =>
        obtain ⟨hown, hclaimed, hdraining⟩ := hentry a ha
        exact (judgeSetWindow_active hlive hp ho ha).trans (judgeClearWindow_done hown hclaimed hdraining)
  · rw [windowIndexOf_none hindex]
    exact reply_up ht.2 _ _ _ _
  · rw [windowIndexOf_ofNat]
    dsimp only
    rw [if_neg (by simp [hlive])]
    exact reply_up ht.2 _ _ _ _
  · unfold clearWindow
    dsimp only
    rw [hnone]
    exact reply_up ht.2 _ _ _ _
  · exact clearWindow_judged ht hlive ha (judgeClearWindow_notOwner ho) nofun
  · exact clearWindow_judged ht hlive ha (judgeClearWindow_wrongState ho hp) nofun
  · exact clearWindow_taken ht hlive ha (judgeClearWindow_done ho hcl hdr) hc

end Sys2Proof.Machine
end

section
/-! The return of an owner (R84, R87): its members leave its partner's gathering batch, which goes on or ends. -/

namespace Sys2Proof.Machine

/-! ### The members of a returned owner -/

/-- R84: the GATHERED members of a batch whose old owner is node `x`. -/
def Batch.membersOf (b : Batch) (x : Node) : List Member :=
  b.members.filter (fun m => decide (m.status = .gathered ∧ m.oldOwner = some x))

theorem mem_membersOf {b : Batch} {x : Node} {m : Member} :
    m ∈ b.membersOf x ↔ m ∈ b.members ∧ m.status = .gathered ∧ m.oldOwner = some x := by
  simp [Batch.membersOf]

/-- R79: a slot has one member record, so a member's slot tells whether it leaves. -/
theorem slot_mem_membersOf_iff {b : Batch} (h : (b.members.map Member.slot).Nodup) {x : Node} {m : Member}
    (hm : m ∈ b.members) :
    m.slot ∈ (b.membersOf x).map Member.slot ↔ m.status = .gathered ∧ m.oldOwner = some x := by
  refine ⟨fun hslot => ?_, fun hx => List.mem_map_of_mem (mem_membersOf.2 ⟨hm, hx⟩)⟩
  obtain ⟨k, hk, heq⟩ := List.mem_map.1 hslot
  obtain ⟨hkm, hx⟩ := mem_membersOf.1 hk
  rwa [← List.inj_on_of_nodup_map h hkm hm heq]

/-- R84: the members of a returned owner leave one after another. -/
theorem dropReturned_left {s : State} {n : Node} (x : Node)
    (hnodup : ((s.batch n).members.map Member.slot).Nodup) :
    MembersLeft s n .droppedOwnerReturned ((s.batch n).membersOf x) (s.dropReturned n x) := by
  have hfold := MembersLeft.fold (st := .droppedOwnerReturned) (n := n) ((s.batch n).membersOf x) s
    ((List.filter_sublist.map Member.slot).nodup hnodup)
  unfold Batch.membersOf at hfold ⊢
  rw [List.foldl_filter] at hfold
  unfold State.dropReturned
  simpa [State.leaveMember] using hfold

/-- The members' records where those of one owner leave. -/
theorem MembersLeft.members_owner {s t : State} {n x : Node} {st : MemberStatus}
    (h : MembersLeft s n st ((s.batch n).membersOf x) t)
    (hnodup : ((s.batch n).members.map Member.slot).Nodup) :
    t.batch n = { s.batch n with members := (s.batch n).members.map (fun m =>
      if m.status = .gathered ∧ m.oldOwner = some x then { m with status := st } else m) } := by
  rw [h.batch]
  refine congrArg (fun ks => ({ s.batch n with members := ks } : Batch)) (List.map_congr_left fun k hk => ?_)
  simp only [slot_mem_membersOf_iff hnodup hk]

/-! ### What follows a heartbeat -/

theorem tellReturned_frame (s : State) (n : Node) (before after : Lease) :
    { s.tellReturned n before after with notices := s.notices } = s := by
  unfold State.tellReturned
  split
  · split <;> rfl
  · rfl

/-- R31, R84: the Takeover Unit is told of a heartbeat once the lease is LIVE, the reply sent and the partner
told. -/
theorem heartbeat_ownerReturned (n : Node) (id : BitVec 16) (period miss : Nat) (fast : Bool) {s : State}
    (hup : (s.port n).state = .up) : ∃ u, heartbeat n id period miss fast s = ownerReturned n u ∧
      { u with leases := s.leases, ports := s.ports, notices := s.notices } = s ∧ (u.lease n).state = .live := by
  refine ⟨_, rfl, ?_, ?_⟩
  all_goals
    rw [reply_up (by exact hup)]
    generalize heartbeatReply _ _ _ _ _ _ _ _ = data
    have hframe := tellReturned_frame ((s.setLease n ((s.lease n).beat s.now s.time.source period miss fast)).answered
      n id 0x10 .done data) n (s.lease n) ((s.lease n).beat s.now s.time.source period miss fast)
  · exact (congrArg (fun u : State => { u with leases := s.leases, ports := s.ports, notices := s.notices }) hframe :)
  · refine (congrArg (fun u => (State.lease u n).state) hframe :).trans ?_
    exact congrArg Lease.state (State.setLease_lease_same s n _)

/-- The members' records once node `x` has returned. -/
def ownerDropped (x : Node) (ms : List Member) : List Member :=
  ms.map (fun m => if m.status = .gathered ∧ m.oldOwner = some x then { m with status := .droppedOwnerReturned } else m)

/-- A member is final after the return when it leaves or was final before. -/
theorem ownerDropped_final_iff {x : Node} {ms : List Member} :
    (∀ k ∈ ownerDropped x ms, k.status.isFinal = true) ↔
      ∀ m ∈ ms, ¬(m.status = .gathered ∧ m.oldOwner = some x) → m.status.isFinal = true := by
  unfold ownerDropped
  rw [List.forall_mem_map]
  refine forall_congr' fun m => imp_congr_right fun _ => ?_
  split
  · rename_i hx
    exact iff_of_true rfl fun hno => absurd hx hno
  · rename_i hx
    exact (imp_iff_right hx).symm

/-- What the return of node `x` changes while its partner gathers a batch. -/
structure OwnerLeft (s : State) (x : Node) (t : State) : Prop where
  frame : { t with slots := s.slots, batches := s.batches, notices := s.notices } = s
  partner : t.batch x = s.batch x
  returned : ∀ m ∈ (s.batch x.partner).membersOf x, t.slot m.slot = (s.slot m.slot).returned x.partner m.prior
  stands : ∀ j, j ∉ ((s.batch x.partner).membersOf x).map Member.slot → t.slot j = s.slot j
  goesOn : ¬(∀ k ∈ ownerDropped x (s.batch x.partner).members, k.status.isFinal = true) →
    t.batch x.partner = { s.batch x.partner with members := ownerDropped x (s.batch x.partner).members }
  ends : (∀ k ∈ ownerDropped x (s.batch x.partner).members, k.status.isFinal = true) →
    t.batch x.partner = { s.batch x.partner with
      state := .ended, members := ownerDropped x (s.batch x.partner).members, outcome := some .noneTaken
      endTick := some s.now, gatherDeadline := none }

/-- R84, R87: the owner's members leave, and the batch ends if each of its members is then final. -/
theorem ownerReturned_left {s : State} {x : Node} (h : (s.batch x.partner).state = .gathering)
    (hnodup : ((s.batch x.partner).members.map Member.slot).Nodup)
    (hmark : (∀ k ∈ ownerDropped x (s.batch x.partner).members, k.status.isFinal = true) →
      ∀ i, (s.slot i).autoPending ≠ some x.partner) :
    OwnerLeft s x (ownerReturned x s) := by
  have left := dropReturned_left x hnodup
  have hmembers : (s.dropReturned x.partner x).batch x.partner =
      { s.batch x.partner with members := ownerDropped x (s.batch x.partner).members } := left.members_owner hnodup
  have hpartner := left.partner
  rw [Node.partner_partner] at hpartner
  have hreturned : ownerReturned x s = if (((s.dropReturned x.partner x).batch x.partner).members.all fun m =>
      m.status.isFinal) = true then endBatch x.partner .noneTaken (s.dropReturned x.partner x)
    else s.dropReturned x.partner x := if_pos h
  rw [hreturned]
  generalize s.dropReturned x.partner x = v at left hmembers hpartner
  have hall_iff : ((v.batch x.partner).members.all fun m => m.status.isFinal) = true ↔
      ∀ k ∈ ownerDropped x (s.batch x.partner).members, k.status.isFinal = true := by rw [hmembers, List.all_eq_true]
  by_cases hall : ∀ k ∈ ownerDropped x (s.batch x.partner).members, k.status.isFinal = true
  · have hnow : v.now = s.now := (congrArg State.now left.frame :)
    obtain ⟨hclose, -⟩ := closeBatch_partner v x.partner .noneTaken
    rw [Node.partner_partner] at hclose
    rw [if_pos (hall_iff.2 hall), endBatch_unmarked fun j => by rw [left.autoPending]; exact hmark hall j]
    exact ⟨(congrArg (fun u : State => { u with notices := s.notices }) left.frame :), hclose.trans hpartner,
      left.returned, left.stands, fun hno => absurd hall hno, fun _ => by rw [closeBatch_batch, hmembers, hnow]⟩
  · rw [if_neg (mt hall_iff.1 hall)]
    exact ⟨(congrArg (fun u : State => { u with notices := s.notices }) left.frame :), hpartner, left.returned,
      left.stands, fun _ => hmembers, fun h => absurd h hall⟩

/-- Settles O22: a heartbeat is followed by the return of its node (`ownerReturned_left`). -/
theorem returnedOwnerLeavesTheGatheringBatch : Obligations.ReturnedOwnerLeavesTheGatheringBatch := by
  intro s x id period miss fast ht hperiod hfast hb hnodup dropped hdropped hclaimed ms hms goesOn hgoesOn hmark
  obtain ⟨u, hbeat, hframe, hlive⟩ := heartbeat_ownerReturned x id period.toNat miss.toNat (decide (fast = 1)) ht.2
  have hbatch : ∀ n, u.batch n = s.batch n := fun n => (congrArg (fun v => State.batch v n) hframe :)
  have hslot : ∀ i, u.slot i = s.slot i := fun i => (congrArg (fun v => State.slot v i) hframe :)
  have hnow : u.now = s.now := (congrArg State.now hframe :)
  obtain rfl : ms = ownerDropped x (s.batch x.partner).members := hms
  have hends : (∀ k ∈ ownerDropped x (s.batch x.partner).members, k.status.isFinal = true) ↔ ¬goesOn := by
    rw [hgoesOn, ownerDropped_final_iff]
    simp only [not_exists, not_and, Bool.not_eq_false]
    refine forall_congr' fun m => imp_congr_right fun hm => ?_
    rw [hdropped, and_iff_right hm, not_and]
  have hmem : ∀ m, m ∈ (s.batch x.partner).membersOf x ↔ dropped m := fun m =>
    mem_membersOf.trans (hdropped m).symm
  have left : OwnerLeft u x (ownerReturned x u) := by
    refine ownerReturned_left (by rw [hbatch]; exact hb) (by rw [hbatch]; exact hnodup) fun hall i => ?_
    rw [hslot]
    rw [hbatch] at hall
    exact hmark (hends.1 hall) i
  obtain ⟨hrest, hx, hreturned, hstands, hon, hend⟩ := left
  simp only [hbatch, hslot, hnow, hends, not_not] at hreturned hstands hon hend
  refine ⟨ownerReturned x u, next_whenUp ht ?_, (congrArg (fun v => (State.lease v x).state) hrest :).trans hlive,
    fun m hm => ?_, fun i hi => hstands i ?_, hon, hend, hx.trans (hbatch x),
    (congrArg State.engines hrest :).trans (congrArg State.engines hframe :),
    (congrArg State.bays hrest :).trans (congrArg State.bays hframe :),
    (congrArg State.store hrest :).trans (congrArg State.store hframe :),
    (congrArg State.windows hrest :).trans (congrArg State.windows hframe :)⟩
  · rw [switchOf_some hfast]
    dsimp only
    rw [if_neg hperiod, hbeat]
  · rw [hreturned m ((hmem m).2 hm), SlotRec.returned, if_pos (hclaimed m hm)]
    rfl
  · intro hin
    obtain ⟨m, hm, heq⟩ := List.mem_map.1 hin
    exact hi m ((hmem m).1 hm) heq

end Sys2Proof.Machine
end

section
/-! TAKE (R81 to R83): how each slot of the mask is judged, the slots that join, and the run at once with
W = 0. -/

namespace Sys2Proof.Machine

/-! ### The judgement of a slot (R82) -/

/-- R82: the slot is free, or its owner is gone, outside what the grace protects. -/
def State.freeOrGone (s : State) (n : Node) (i : Slot) : Prop :=
  (s.slot i).phase = .unowned ∧ ((s.slot i).storeLost = false ∨ s.time.grace = false) ∨
    (s.slot i).phase = .owned ∧ (s.slot i).owner = some n.partner ∧ s.gone n.partner = true

section
variable {s : State} {n : Node} {i : Slot}

theorem judgeTake_claimed (h : (s.slot i).phase = .claimed) :
    judgeTake n i s = if (s.slot i).batch = some n then .joined else .contested := by
  unfold judgeTake
  dsimp only
  rw [h]

theorem judgeTake_draining (h : (s.slot i).phase = .draining) :
    judgeTake n i s = if (s.slot i).batch = some n then .wrongState else .contested := by
  unfold judgeTake
  dsimp only
  rw [h]

theorem judgeTake_contested (h : (s.slot i).phase = .claimed ∨ (s.slot i).phase = .draining)
    (hb : (s.slot i).batch = some n.partner) : judgeTake n i s = .contested := by
  have hother : (s.slot i).batch ≠ some n := by simp [hb]
  rcases h with h | h
  · rw [judgeTake_claimed h, if_neg hother]
  · rw [judgeTake_draining h, if_neg hother]

theorem judgeTake_leaving (h : (s.slot i).phase = .handing ∨ (s.slot i).phase = .committing) :
    judgeTake n i s = .wrongState := by
  unfold judgeTake
  dsimp only
  rcases h with h | h <;> rw [h]

theorem judgeTake_unowned (h : (s.slot i).phase = .unowned) :
    judgeTake n i s = if (s.slot i).storeLost = true ∧ s.time.grace = true then .ownerGrace else .joined := by
  unfold judgeTake
  dsimp only
  rw [h]

theorem judgeTake_own (h : (s.slot i).phase = .owned) (ho : (s.slot i).owner = some n) :
    judgeTake n i s = .alreadyOwner := by
  unfold judgeTake
  dsimp only
  rw [h, ho]
  exact if_pos rfl

theorem judgeTake_partner (h : (s.slot i).phase = .owned) (ho : (s.slot i).owner = some n.partner) :
    judgeTake n i s = if s.live n.partner = true then .ownerLive
      else if (s.lease n.partner).state = .absent ∧ s.time.grace = true then .ownerGrace else .joined := by
  unfold judgeTake
  dsimp only
  rw [h, ho]
  exact if_neg (Node.partner_ne n)

theorem judgeTake_noOwner (h : (s.slot i).phase = .owned) (ho : (s.slot i).owner = none) :
    judgeTake n i s = .wrongState := by
  unfold judgeTake
  dsimp only
  rw [h, ho]

/-- R25: of a node that is not live, items 5 and 6 of R82 leave the one that is gone. -/
theorem gone_iff_notLive (s : State) (x : Node) :
    s.gone x = true ↔ ¬s.live x = true ∧ ¬((s.lease x).state = .absent ∧ s.time.grace = true) := by
  unfold State.gone State.live
  cases (s.lease x).state <;> simp

/-- R82 items 1 and 8: JOINED is a slot that joins or one that has joined before. -/
theorem judgeTake_joined_iff :
    judgeTake n i s = .joined ↔
      s.freeOrGone n i ∨ (s.slot i).phase = .claimed ∧ (s.slot i).batch = some n := by
  unfold State.freeOrGone
  cases hp : (s.slot i).phase with
  | unowned =>
    rw [judgeTake_unowned hp]
    cases (s.slot i).storeLost <;> cases s.time.grace <;> simp
  | owned =>
    rcases ho : (s.slot i).owner with _ | x
    · simp [judgeTake_noOwner hp ho]
    · rcases Node.eq_or_partner x n with rfl | rfl
      · simp [judgeTake_own hp ho]
      · rw [judgeTake_partner hp ho, gone_iff_notLive]
        split
        · simp_all
        · split <;> simp_all
  | claimed => simp [judgeTake_claimed hp]
  | draining =>
    rw [judgeTake_draining hp]
    split <;> simp
  | handing | committing => simp [judgeTake_leaving, hp]

theorem joinsNew_iff : joinsNew n i s = true ↔ s.freeOrGone n i := by
  unfold joinsNew
  rw [Bool.and_eq_true, decide_eq_true_eq, decide_eq_true_eq, judgeTake_joined_iff]
  refine ⟨fun ⟨h, hc⟩ => h.resolve_right fun hcl => hc hcl.1, fun h => ⟨.inl h, ?_⟩⟩
  rcases h with ⟨hp, -⟩ | ⟨hp, -⟩ <;> simp [hp]

/-- The judgement depends on the slot, the leases and the grace. -/
theorem judgeTake_congr {t : State} (hslot : t.slot i = s.slot i) (hleases : t.leases = s.leases)
    (htime : t.time = s.time) : judgeTake n i t = judgeTake n i s ∧ joinsNew n i t = joinsNew n i s := by
  have hjudge : judgeTake n i t = judgeTake n i s := by
    unfold judgeTake State.live State.lease
    rw [hslot, hleases, htime]
  exact ⟨hjudge, by rw [joinsNew, joinsNew, hjudge, hslot]⟩

end

/-! ### The slots that join (R81) -/

/-- R81: the state whose batch the slots of a TAKE join. -/
def State.takeBatch (s : State) (n : Node) : State :=
  if (s.batch n).state = .gathering then s else s.createBatch n .request

/-- The slots of the mask that join. -/
def State.joining (s : State) (n : Node) (mask : SlotMask) : List Slot :=
  (slotsIn mask).filter (fun i => joinsNew n i s)

theorem takeBatch_frame (s : State) (n : Node) : { s.takeBatch n with batches := s.batches } = s := by
  unfold State.takeBatch
  split <;> rfl

theorem takeBatch_state (s : State) (n : Node) : ((s.takeBatch n).batch n).state = .gathering := by
  unfold State.takeBatch
  split
  · assumption
  · exact congrArg Batch.state (createBatch_batch s n .request)

theorem mem_joining {s : State} {n : Node} {mask : SlotMask} {i : Slot} :
    i ∈ s.joining n mask ↔ mask.getLsbD i.val = true ∧ s.freeOrGone n i := by
  rw [State.joining, List.mem_filter, mem_slotsIn, joinsNew_iff]

theorem joining_nodup (s : State) (n : Node) (mask : SlotMask) : (s.joining n mask).Nodup :=
  (slotsIn_nodup mask).filter _

theorem takeJoin_eq (s : State) (n : Node) (i : Slot) : s.takeJoin n i = (s.takeBatch n).join n i := rfl

theorem join_batch_state (s : State) (n : Node) (i : Slot) : ((s.join n i).batch n).state = (s.batch n).state :=
  (congrArg Batch.state (State.setBatch_batch_same _ n _) :)

theorem takeJoin_fold_gathering {n : Node} (is : List Slot) {s : State} (h : (s.batch n).state = .gathering) :
    is.foldl (fun s i => s.takeJoin n i) s = is.foldl (fun s i => s.join n i) s := by
  induction is generalizing s with
  | nil => rfl
  | cons i is ih =>
    have hone : s.takeJoin n i = s.join n i := by rw [takeJoin_eq, State.takeBatch, if_pos h]
    rw [List.foldl_cons, List.foldl_cons, hone]
    exact ih ((join_batch_state s n i).trans h)

/-- R81: the first slot that joins creates the batch where none gathers. -/
theorem takeJoin_fold {n : Node} {is : List Slot} (hne : is ≠ []) (s : State) :
    is.foldl (fun s i => s.takeJoin n i) s = is.foldl (fun s i => s.join n i) (s.takeBatch n) := by
  cases is with
  | nil => exact absurd rfl hne
  | cons i is => exact takeJoin_fold_gathering is ((join_batch_state _ n i).trans (takeBatch_state s n))

/-- A slot that joins does not change how another is judged. -/
theorem takeSlots_eq {n : Node} (is : List Slot) (hnodup : is.Nodup) (s : State) :
    takeSlots n is s = ((is.filter (fun i => joinsNew n i s)).foldl (fun s i => s.takeJoin n i) s,
      is.map (fun i => (i, judgeTake n i s))) := by
  induction is generalizing s with
  | nil => rfl
  | cons i is ih =>
    obtain ⟨hi, hrest⟩ := List.nodup_cons.1 hnodup
    have step : ∀ t : State, (∀ j, j ≠ i → t.slot j = s.slot j) → t.leases = s.leases → t.time = s.time →
        takeSlots n is t = ((is.filter (fun i => joinsNew n i s)).foldl (fun s i => s.takeJoin n i) t,
          is.map (fun i => (i, judgeTake n i s))) := by
      intro t hslot hleases htime
      have hsame : ∀ j ∈ is, judgeTake n j t = judgeTake n j s ∧ joinsNew n j t = joinsNew n j s := fun j hj =>
        judgeTake_congr (hslot j fun h => hi (h ▸ hj)) hleases htime
      rw [ih hrest t, List.filter_congr fun j hj => (hsame j hj).2,
        List.map_congr_left fun j hj => congrArg (Prod.mk j) (hsame j hj).1]
    unfold takeSlots
    dsimp only
    rw [List.map_cons]
    by_cases hj : joinsNew n i s = true
    · have hframe := takeBatch_frame s n
      rw [if_pos hj, List.filter_cons_of_pos (p := fun i => joinsNew n i s) hj, List.foldl_cons,
        step (s.takeJoin n i) ?_ (congrArg State.leases hframe :) (congrArg State.time hframe :)]
      intro j hne
      exact (State.setSlot_slot (s.takeBatch n) i _ j).trans ((if_neg hne).trans
        (congrArg (fun u => State.slot u j) hframe :))
    · rw [if_neg hj, List.filter_cons_of_neg (p := fun i => joinsNew n i s) hj, step s (fun _ _ => rfl) rfl rfl]

/-! ### The reply (R83) -/

/-- R83: the state a TAKE comes to before its reply. -/
def State.takenInto (s : State) (n : Node) (mask : SlotMask) : State :=
  if s.joining n mask = [] then s
  else gather n ((s.joining n mask).foldl (fun s i => s.join n i) (s.takeBatch n))

/-- R82: each slot of the mask with its result. -/
def State.judgements (s : State) (n : Node) (mask : SlotMask) : List (Slot × Result) :=
  (slotsIn mask).map (fun i => (i, judgeTake n i s))

/-- R83: the result of the request. -/
def State.takeResult (s : State) (n : Node) (mask : SlotMask) : Result :=
  if (s.judgements n mask).any (fun x => decide (x.2 = .joined)) = true then .accepted else .refused

theorem takeResult_eq (s : State) (n : Node) (mask : SlotMask) : s.takeResult n mask =
    if ∃ i : Slot, mask.getLsbD i.val = true ∧ judgeTake n i s = .joined then .accepted else .refused := by
  refine if_congr ?_ rfl rfl
  simp [State.judgements, mem_slotsIn]

theorem take_eq (n : Node) (id : BitVec 16) (mask : SlotMask) (s : State) : take n id mask s =
    (s.takenInto n mask).reply n id 0x30 (s.takeResult n mask)
      (takeReply ((s.takenInto n mask).batch n) (s.judgements n mask)) := by
  have hany : (slotsIn mask).any (fun i => joinsNew n i s) = true ↔ ¬s.joining n mask = [] := by
    rw [State.joining, List.filter_eq_nil_iff, List.any_eq_true]
    push Not
    rfl
  have hinto : (if decide ((slotsIn mask).any fun i => joinsNew n i s) = true then
      gather n (takeSlots n (slotsIn mask) s).1 else (takeSlots n (slotsIn mask) s).1) = s.takenInto n mask := by
    rw [takeSlots_eq _ (slotsIn_nodup mask), State.takenInto]
    by_cases h : s.joining n mask = []
    · rw [if_pos h, if_neg (by rw [decide_eq_true_eq, hany]; exact not_not.2 h)]
      exact congrArg (List.foldl _ s) h
    · rw [if_neg h, if_pos (by rw [decide_eq_true_eq, hany]; exact h)]
      exact congrArg (gather n) (takeJoin_fold h s)
  unfold take
  dsimp only
  rw [hinto, takeSlots_eq _ (slotsIn_nodup mask)]
  rfl

/-- R83: a request that is judged slot by slot adds its reply to what the slots that join come to. -/
theorem exec_take_replied {s u : State} {n : Node} (ht : s.Takes n) (id : BitVec 16) {mask : SlotMask}
    (hm : mask ≠ 0) (hl : s.live n = true) (hb : (s.batch n).state ≠ .running) (hu : s.takenInto n mask = u)
    (hports : u.ports = s.ports) : ∃ t, exec (.take n id mask) s = .next t ∧ { t with ports := u.ports } = u ∧
      (t.port n).unsent = (s.port n).unsent ++ [.rsp id 0x30 (s.takeResult n mask)
        (takeReply (u.batch n) (s.judgements n mask))] := by
  have hport : u.port n = s.port n := congrArg (fun p : Pair Port => p.get n) hports
  refine ⟨u.answered n id 0x30 (s.takeResult n mask) (takeReply (u.batch n) (s.judgements n mask)),
    next_whenUp ht ?_, rfl, ?_⟩
  · rw [if_neg hm, if_neg (by simp [hl]), if_neg hb, take_eq, hu]
    exact reply_up (by rw [hport]; exact ht.2) _ _ _ _
  · rw [← hport]
    exact congrArg Port.unsent (Pair.get_put_same u.ports n _)

theorem takenInto_none {s : State} {n : Node} {mask : SlotMask} (h : s.joining n mask = []) :
    s.takenInto n mask = s := if_pos h

/-- R81, R83: the slots `is` of a TAKE gather. -/
structure TakeGathers (s : State) (n : Node) (is : List Slot) (t : State) : Prop where
  frame : { t with slots := s.slots, batches := s.batches } = s
  state : (t.batch n).state = .gathering
  deadline : (t.batch n).gatherDeadline = some (later s.now (s.timing.gatherWindow * 10))
  slot : ∀ i, t.slot i = if i ∈ is then (s.slot i).enter .claimed none none (some n) none else s.slot i
  member : ∀ i ∈ is, ∃ m ∈ (t.batch n).members, m.slot = i ∧ m.status = .gathered ∧ m.oldOwner = (s.slot i).owner

theorem takenInto_gathers {s : State} {n : Node} {mask : SlotMask} (h : s.joining n mask ≠ [])
    (hw : s.timing.gatherWindow ≠ 0) : TakeGathers s n (s.joining n mask) (s.takenInto n mask) := by
  have hbase := takeBatch_frame s n
  have hslot : ∀ i, (s.takeBatch n).slot i = s.slot i := fun i => (congrArg (fun u => State.slot u i) hbase :)
  have htiming : (s.takeBatch n).timing = s.timing := (congrArg State.timing hbase :)
  have hnow : (s.takeBatch n).now = s.now := (congrArg State.now hbase :)
  have joined := gatherWith_gathered (s := s.takeBatch n) runBatch n (joining_nodup s n mask) (by rwa [htiming])
  rw [State.takenInto, if_neg h]
  refine ⟨?_, joined.state.trans (takeBatch_state s n), ?_, fun i => ?_,
    fun i hi => ⟨_, joined.member i hi, rfl, rfl, ?_⟩⟩
  · exact (congrArg (fun u : State => { u with slots := s.slots, batches := s.batches }) joined.frame :).trans
      (congrArg (fun u : State => { u with slots := s.slots }) hbase :)
  · rw [← htiming, ← hnow]
    exact joined.deadline
  · rw [← hslot]
    exact joined.slot i
  · exact congrArg SlotRec.owner (hslot i)

/-! ### The run at once (R83, R88) -/

/-- The slot is taken by a batch that runs: it drains or commits. -/
def SlotRec.BeingTaken (r : SlotRec) : Prop := r.phase = .draining ∨ r.phase = .committing

section
variable {s : State} {n : Node} {m : Member}

theorem ranSlot_beingTaken (h : (s.bay m.slot).state ≠ .held) : (s.ranSlot n m).BeingTaken := by
  rw [State.ranSlot, if_neg h]
  split
  · exact .inr rfl
  · exact .inl rfl

theorem ranAs_notFinal (h : (s.bay m.slot).state ≠ .held) (k : Member) : (s.ranAs n m k).status.isFinal = false := by
  rw [State.ranAs, if_neg h]
  split <;> rfl

/-- A member that begins its commit or its drain sends nothing to a node. -/
theorem runMember_ports (fin : Slot → Bool → State → State) (n : Node) (m : Member)
    (h : s.store.mode ≠ .faulted) : (runMember fin n m s).ports = s.ports := by
  have commit : ∀ v : State, v.store = s.store → v.ports = s.ports → (startCommitWith fin m.slot (some n) .takeover
      (v.setMember n m.slot fun k => { k with status := .committing })).ports = s.ports := fun v hstore hports =>
    (congrArg State.ports (MemberMoved.commit fin _ (hstore ▸ h)).frame :).trans hports
  unfold runMember
  dsimp only
  by_cases hb : (s.bay m.slot).state = .held
  · rw [if_pos hb, setMember_returnSlot]
    exact (congrArg State.ports (MembersLeft.one s n .skippedHeld m).frame :)
  · rw [if_neg hb]
    cases m.prior with
    | unowned => exact commit s rfl rfl
    | owned =>
      dsimp only
      split
      · exact commit (s.fenceOwner m.slot _ n) rfl rfl
      · rfl

end

/-- What the run of the members `ms` comes to at bays that are not HELD, where a slot may have any number of
member records. -/
structure MembersTaken (s : State) (n : Node) (ms : List Member) (t : State) : Prop where
  store : t.store.mode ≠ .faulted
  ports : t.ports = s.ports
  bays : t.bays = s.bays
  batch : { t.batch n with members := [] } = { s.batch n with members := [] }
  taken : ∀ i, (s.bay i).state ≠ .held → (s.slot i).BeingTaken ∨ i ∈ ms.map Member.slot → (t.slot i).BeingTaken
  notFinal : ∀ i, (s.bay i).state ≠ .held → (∃ k ∈ (s.batch n).members, k.slot = i ∧ k.status.isFinal = false) →
    ∃ k ∈ (t.batch n).members, k.slot = i ∧ k.status.isFinal = false

theorem MembersTaken.one {s : State} (fin : Slot → Bool → State → State) (n : Node) (m : Member)
    (h : s.store.mode ≠ .faulted) : MembersTaken s n [m] (runMember fin n m s) := by
  have ran := runMember_ran (n := n) fin m h
  refine ⟨ran.store, runMember_ports fin n m h, ran.bays, by rw [ran.batch], fun i hb hi => ?_,
    fun i hb ⟨k, hk, hslot, hfinal⟩ => ?_⟩
  · rw [ran.slot]
    split
    · rename_i him
      exact ranSlot_beingTaken (him ▸ hb)
    · rename_i him
      exact hi.resolve_right (by simpa using him)
  · rw [ran.batch]
    refine ⟨_, mem_updateMember.2 ⟨k, hk, rfl⟩, ?_⟩
    split
    · rename_i hkm
      exact ⟨(ranAs_slot s n m k).trans hslot, ranAs_notFinal (by rw [← hkm, hslot]; exact hb) k⟩
    · exact ⟨hslot, hfinal⟩

theorem MembersTaken.fold {n : Node} (fin : Slot → Bool → State → State) (ms : List Member) (s : State)
    (h : s.store.mode ≠ .faulted) : MembersTaken s n ms (ms.foldl (fun s m => runMember fin n m s) s) := by
  induction ms generalizing s with
  | nil => exact ⟨h, rfl, rfl, rfl, fun _ _ hi => hi.resolve_right List.not_mem_nil, fun _ _ hk => hk⟩
  | cons m ms ih =>
    have one := MembersTaken.one fin n m h
    have rest := ih (runMember fin n m s) one.store
    have hbay : ∀ i, (runMember fin n m s).bay i = s.bay i := fun i =>
      congrArg (fun v : Vector Bay 8 => v[i]) one.bays
    refine ⟨rest.store, rest.ports.trans one.ports, rest.bays.trans one.bays, rest.batch.trans one.batch,
      fun i hb hi => rest.taken i (by rw [hbay]; exact hb) ?_,
      fun i hb hk => rest.notFinal i (by rw [hbay]; exact hb) (one.notFinal i hb hk)⟩
    rw [List.map_cons, List.mem_cons, ← or_assoc] at hi
    exact hi.imp_left fun hi => one.taken i hb (hi.imp_right fun hi => List.mem_singleton.2 hi)

/-- R88: a run that begins with a GATHERED member at a bay that is not HELD goes on. -/
theorem runBatch_taken {s : State} {n : Node} (h : s.store.mode ≠ .faulted)
    (hopen : ∃ m ∈ (s.batch n).members, m.status = .gathered ∧ (s.bay m.slot).state ≠ .held) :
    MembersTaken (s.startRun n) n (s.batch n).gatheredMembers (runBatch n s) := by
  have taken := MembersTaken.fold (n := n) (finishWith (runLevel 3)) (s.batch n).gatheredMembers (s.startRun n) h
  rw [← runMembers_eq] at taken
  obtain ⟨m, hm, hst, hb⟩ := hopen
  obtain ⟨k, hk, -, hfinal⟩ := taken.notFinal m.slot hb ⟨m, by rw [startRun_batch]; exact hm, rfl, by rw [hst]; rfl⟩
  have hgoes : runBatch n s = runMembers (finishWith (runLevel 3)) n s := by
    refine if_neg fun hdone => ?_
    obtain ⟨-, hall⟩ := Bool.and_eq_true_iff.1 hdone
    exact Bool.false_ne_true (hfinal.symm.trans (List.all_eq_true.1 hall k hk))
  rw [hgoes]
  exact taken

/-- What a batch that gathers with W = 0 comes to: it runs from this event. -/
structure BatchRuns (s : State) (n : Node) (t : State) : Prop where
  state : (t.batch n).state = .running
  start : (t.batch n).startTick = some s.now
  deadline : (t.batch n).gatherDeadline = none
  ports : t.ports = s.ports
  taken : ∀ m ∈ (s.batch n).members, m.status = .gathered → (s.bay m.slot).state ≠ .held →
    (t.slot m.slot).BeingTaken

theorem gather_runs {s : State} {n : Node} (hw : s.timing.gatherWindow = 0) (h : s.store.mode ≠ .faulted)
    (hopen : ∃ m ∈ (s.batch n).members, m.status = .gathered ∧ (s.bay m.slot).state ≠ .held) :
    BatchRuns s n (gather n s) := by
  have hgather : gather n s = runBatch n (s.setBatch n
      { s.batch n with gatherDeadline := some (later s.now (s.timing.gatherWindow * 10)) }) := if_pos hw
  generalize hu : s.setBatch n { s.batch n with
    gatherDeadline := some (later s.now (s.timing.gatherWindow * 10)) } = u at hgather
  have hmembers : (u.batch n).members = (s.batch n).members := by rw [← hu, State.setBatch_batch_same]
  have hframe : { u with batches := s.batches } = s := by rw [← hu]; rfl
  have hbay : ∀ i, u.bay i = s.bay i := fun i => (congrArg (fun v => State.bay v i) hframe :)
  have hstore : u.store = s.store := (congrArg State.store hframe :)
  have hnow : u.now = s.now := (congrArg State.now hframe :)
  have run := runBatch_taken (s := u) (n := n) (by rw [hstore]; exact h) (by simpa only [hmembers, hbay] using hopen)
  have hbatch := run.batch
  rw [startRun_batch] at hbatch
  rw [hgather]
  refine ⟨(congrArg Batch.state hbatch :), ?_, (congrArg Batch.gatherDeadline hbatch :),
    run.ports.trans (congrArg State.ports hframe :), fun m hm hst hb => run.taken m.slot ?_ (.inr ?_)⟩
  · rw [← hnow]
    exact (congrArg Batch.startTick hbatch :)
  · exact (hbay m.slot).symm ▸ hb
  · exact List.mem_map_of_mem (mem_gatheredMembers.2 ⟨hmembers ▸ hm, hst⟩)

/-- R83: the slots `is` of a TAKE with W = 0 are taken at this event. -/
structure TakeRuns (s : State) (n : Node) (is : List Slot) (t : State) : Prop where
  state : (t.batch n).state = .running
  start : (t.batch n).startTick = some s.now
  deadline : (t.batch n).gatherDeadline = none
  ports : t.ports = s.ports
  taken : ∀ i ∈ is, (s.bay i).state ≠ .held → (t.slot i).BeingTaken

theorem takenInto_runs {s : State} {n : Node} {mask : SlotMask} (hw : s.timing.gatherWindow = 0)
    (h : s.store.mode ≠ .faulted) (hopen : ∃ i ∈ s.joining n mask, (s.bay i).state ≠ .held) :
    TakeRuns s n (s.joining n mask) (s.takenInto n mask) := by
  have joined := SlotsJoined.fold (n := n) (s.joining n mask) (s.takeBatch n)
  have hmember := fun j => mem_joined (n := n) (s.joining n mask) (joining_nodup s n mask) (s.takeBatch n) (j := j)
  obtain ⟨i, hi, hb⟩ := hopen
  rw [State.takenInto, if_neg (List.ne_nil_of_mem hi)]
  generalize (s.joining n mask).foldl (fun s i => s.join n i) (s.takeBatch n) = v at joined hmember
  have hframe : { v with slots := s.slots, batches := s.batches } = s :=
    (congrArg (fun u : State => { u with slots := s.slots, batches := s.batches }) joined.frame :).trans
      (congrArg (fun u : State => { u with slots := s.slots }) (takeBatch_frame s n) :)
  have hbay : ∀ j, v.bay j = s.bay j := fun j => (congrArg (fun u => State.bay u j) hframe :)
  have hstore : v.store = s.store := (congrArg State.store hframe :)
  have hnow : v.now = s.now := (congrArg State.now hframe :)
  obtain ⟨hstate, hstart, hdeadline, hports, htaken⟩ : BatchRuns v n (gather n v) :=
    gather_runs ((congrArg (fun u : State => u.timing.gatherWindow) hframe :).trans hw) (by rwa [hstore])
      ⟨_, hmember i hi, rfl, (hbay i).symm ▸ hb⟩
  rw [hnow] at hstart
  exact ⟨hstate, hstart, hdeadline, hports.trans (congrArg State.ports hframe :),
    fun j hj hbj => htaken _ (hmember j hj) rfl ((hbay j).symm ▸ hbj)⟩

/-- Settles O49: the mask is judged slot by slot (`takeSlots_eq`); the slots that join gather, or run at once. -/
theorem takeClaimsTheFreeAndTheGone : Obligations.TakeClaimsTheFreeAndTheGone := by
  intro s n id mask ht
  refine ⟨fun hm => ?_, fun hm hl => ?_, fun hm hl hb => ?_,
    fun hm hl hb joins already hjoins halready judged hjudged replied hreplied => ?_⟩
  · exact next_whenUp ht ((if_pos hm).trans (reply_up ht.2 _ _ _ _))
  · refine next_whenUp ht ?_
    rw [if_neg hm, if_pos (by simp [hl])]
    exact reply_up ht.2 _ _ _ _
  · refine next_whenUp ht ?_
    rw [if_neg hm, if_neg (by simp [hl]), if_pos hb]
    exact reply_up ht.2 _ _ _ _
  have hmem : ∀ i, i ∈ s.joining n mask ↔ joins i := fun i => mem_joining.trans (hjoins i).symm
  have hjoined : ∀ i, mask.getLsbD i.val = true → (judgeTake n i s = .joined ↔ joins i ∨ already i) := by
    intro i hi
    rw [judgeTake_joined_iff, hjoins, halready, and_iff_right hi, and_iff_right hi]
    rfl
  have hany : (∃ i : Slot, mask.getLsbD i.val = true ∧ judgeTake n i s = .joined) ↔ ∃ i, joins i ∨ already i := by
    refine exists_congr fun i => ⟨fun ⟨hi, hj⟩ => (hjoined i hi).1 hj, fun h => ?_⟩
    have hi : mask.getLsbD i.val = true := h.elim (fun h => ((hjoins i).1 h).1) (fun h => ((halready i).1 h).1)
    exact ⟨hi, (hjoined i hi).2 h⟩
  have hjudge : ∀ x ∈ s.judgements n mask, judged x := by
    intro x hx
    obtain ⟨i, hi, rfl⟩ := List.mem_map.1 hx
    refine (hjudged _ _).2 ⟨(hjoined i ((mem_slotsIn mask i).1 hi)).2, judgeTake_contested, judgeTake_leaving,
      fun hp => ⟨judgeTake_own hp, fun ho hlive => ?_, fun ho habsent hg => ?_⟩, fun hp hlost hg => ?_⟩
    · rw [judgeTake_partner hp ho, if_pos hlive]
    · rw [judgeTake_partner hp ho, if_neg (by simp [notLive_of_absent habsent]), if_pos ⟨habsent, hg⟩]
    · rw [judgeTake_unowned hp, if_pos ⟨hlost, hg⟩]
  have answered : ∀ u, s.takenInto n mask = u → u.ports = s.ports → ∃ t, exec (.take n id mask) s = .next t ∧
      { t with ports := u.ports } = u ∧ ((∃ i, joins i ∨ already i) → replied .accepted t) ∧
      ((¬∃ i, joins i ∨ already i) → replied .refused t) := by
    intro u hu hports
    obtain ⟨t, hexec, hframe, hunsent⟩ := exec_take_replied ht id hm hl hb hu hports
    have hbatch : t.batch n = u.batch n := (congrArg (fun v => State.batch v n) hframe :)
    have hslots : (s.judgements n mask).map Prod.fst = slotsIn mask := by simp [State.judgements, Function.comp_def]
    rw [← hbatch, takeResult_eq] at hunsent
    refine ⟨t, hexec, hframe, fun h => ?_, fun h => ?_⟩
    · rw [if_pos (hany.2 h)] at hunsent
      exact (hreplied _ _).2 ⟨_, hslots, hjudge, hunsent⟩
    · rw [if_neg (mt hany.1 h)] at hunsent
      exact (hreplied _ _).2 ⟨_, hslots, hjudge, hunsent⟩
  refine ⟨fun hw => ?_, fun hw hstore ⟨i, hi, hbay⟩ => ?_⟩
  · by_cases hnone : s.joining n mask = []
    · have hno : ∀ i, ¬joins i := fun i hi => List.not_mem_nil (hnone ▸ (hmem i).2 hi)
      obtain ⟨t, hexec, hframe, haccepted, hrefused⟩ := answered s (takenInto_none hnone) rfl
      exact ⟨t, hexec, fun i hi => absurd hi (hno i), fun i _ => (congrArg (fun u => State.slot u i) hframe :),
        fun ⟨i, hi⟩ => absurd hi (hno i), fun _ => (congrArg State.batches hframe :), haccepted, hrefused,
        (congrArg State.engines hframe :), (congrArg State.bays hframe :), (congrArg State.store hframe :),
        (congrArg State.leases hframe :)⟩
    · obtain ⟨i, hi⟩ := List.exists_mem_of_ne_nil _ hnone
      have hsome : ∃ i, joins i := ⟨i, (hmem i).1 hi⟩
      have hgathers := takenInto_gathers hnone hw
      generalize hu : s.takenInto n mask = u at hgathers
      obtain ⟨hrest, hstate, hdeadline, hslot, hmember⟩ := hgathers
      obtain ⟨t, hexec, hframe, haccepted, hrefused⟩ := answered u hu (congrArg State.ports hrest :)
      have hbatch : t.batch n = u.batch n := (congrArg (fun v => State.batch v n) hframe :)
      have htslot : ∀ i, t.slot i = u.slot i := fun i => (congrArg (fun v => State.slot v i) hframe :)
      refine ⟨t, hexec, fun i hi => ?_, fun i hi => ?_, fun _ => ?_, fun hno => absurd hsome hno, haccepted, hrefused,
        (congrArg State.engines hframe :).trans (congrArg State.engines hrest :),
        (congrArg State.bays hframe :).trans (congrArg State.bays hrest :),
        (congrArg State.store hframe :).trans (congrArg State.store hrest :),
        (congrArg State.leases hframe :).trans (congrArg State.leases hrest :)⟩
      · rw [htslot, hslot, if_pos ((hmem i).2 hi)]
        rfl
      · rw [htslot, hslot, if_neg (mt (hmem i).1 hi)]
      · rw [hbatch]
        exact ⟨hstate, hdeadline, fun i hi => hmember i ((hmem i).2 hi)⟩
  · obtain ⟨hstate, hstart, hdeadline, hports, htaken⟩ := takenInto_runs hw hstore ⟨i, (hmem i).2 hi, hbay⟩
    obtain ⟨t, hexec, hframe, haccepted, -⟩ := answered _ rfl hports
    have hbatch : t.batch n = (s.takenInto n mask).batch n := (congrArg (fun v => State.batch v n) hframe :)
    have hslot : ∀ j, t.slot j = (s.takenInto n mask).slot j := fun j => (congrArg (fun v => State.slot v j) hframe :)
    refine ⟨t, hexec, ?_, ?_, ?_, fun j hj hbj => ?_, haccepted ⟨i, .inl hi⟩⟩
    · rw [hbatch, hstate]
    · rw [hbatch, hstart]
    · rw [hbatch, hdeadline]
    · rw [hslot]
      exact htaken j ((hmem j).2 hj) hbj

end Sys2Proof.Machine
end

section
/-! The last completion of a slot that is handed over or taken over commits it (R18, R58, R59, R91, R106). -/

namespace Sys2Proof.Machine

/-! ### A completion up to the commit -/

/-- A completion has freed tag `k`; a port, a report and a batch are all that changed beside it. -/
structure TagReleased (s : State) (i : Slot) (k : DriveTag) (u : State) : Prop where
  engine : u.engine i = (s.engine i).free k
  others : ∀ j, j ≠ i → u.engine j = s.engine j
  frame : { u with
    engines := s.engines, ports := s.ports, reports := s.reports, batches := s.batches } = s

section
variable {s u v : State} {i : Slot} {k : DriveTag}

theorem TagReleased.of_ports_reports (i : Slot) (k : DriveTag)
    (h : { v with ports := s.ports, reports := s.reports } = s) :
    TagReleased s i k (v.setEngine i ((s.engine i).free k)) := by
  refine ⟨State.setEngine_engine_same _ _ _, fun j hj => ?_,
    (congrArg (fun w : State => { w with engines := s.engines, batches := s.batches }) h :)⟩
  have hengine : v.engine j = s.engine j := (congrArg (fun w => State.engine w j) h :)
  rw [State.setEngine_engine, if_neg hj, hengine]

theorem TagReleased.setMember (h : TagReleased s i k u) (n : Node) (f : Member → Member) :
    TagReleased s i k (u.setMember n i f) :=
  ⟨h.engine, h.others, h.frame⟩

theorem TagReleased.slot_eq (h : TagReleased s i k u) (j : Slot) : u.slot j = s.slot j :=
  (congrArg (fun w => State.slot w j) h.frame :)

theorem TagReleased.bay_eq (h : TagReleased s i k u) (j : Slot) : u.bay j = s.bay j :=
  (congrArg (fun w => State.bay w j) h.frame :)

/-- The update of a commit that follows is the one of the state before the completion. -/
theorem TagReleased.commitUpdate_eq (h : TagReleased s i k u) (o : Owner) :
    u.commitUpdate i o = s.commitUpdate i o := by
  unfold State.commitUpdate
  rw [h.slot_eq, h.bay_eq]

/-- A CPL goes out, or is counted, before the tag is FREE. -/
theorem TagReleased.after_sendCpl (s : State) (i : Slot) (k : DriveTag) (n : Node) (tag : Byte) (st : CplStatus)
    (d : BitVec 16) : TagReleased s i k ((s.sendCpl n i tag st d).setEngine i ((s.engine i).free k)) :=
  .of_ports_reports i k
    (congrArg (fun w : State => { w with reports := s.reports }) (sendCpl_frame s n i tag st d) :)

theorem fillReport_frame (s : State) (i : Slot) (tag : Byte) (fate : Fate) :
    { s.fillReport i tag fate with reports := s.reports } = s := by
  unfold State.fillReport
  split <;> rfl

theorem fillReport_report {r : Report} (h : s.report i = some r) (tag : Byte) (fate : Fate) :
    (s.fillReport i tag fate).report i = some { r with entries := fillTag tag fate r.entries } := by
  unfold State.fillReport
  rw [h]
  exact State.setReport_report_same s i _

/-- The outcome goes into the report before the tag is FREE. -/
theorem TagReleased.after_fillReport (s : State) (i : Slot) (k : DriveTag) (tag : Byte) (fate : Fate) :
    TagReleased s i k ((s.fillReport i tag fate).setEngine i ((s.engine i).free k)) :=
  .of_ports_reports i k
    (congrArg (fun w : State => { w with ports := s.ports }) (fillReport_frame s i tag fate) :)

end

/-! ### What is left outstanding -/

/-- R46: a node whose only outstanding command is under the freed tag has none left. -/
theorem outstanding_free_eq_zero {e : Engine} {k : DriveTag} {n : Node}
    (htags : ∀ x ∈ e.tags, x.tag ≠ k → x.activeOf n = false) (hwaiting : ∀ w ∈ e.waiting, w.node ≠ n) :
    (e.free k).outstanding n = 0 := by
  have hnone : (e.free k).waiting.filter (fun c => decide (c.node = n)) = [] :=
    List.filter_eq_nil_iff.2 fun w hw => by simpa using hwaiting w hw
  have hactive : (e.free k).tags.filter (TagEntry.activeOf n) = [] := by
    refine List.filter_eq_nil_iff.2 fun x hx => ?_
    obtain ⟨hmem, hk⟩ := List.mem_filter.1 hx
    simp [htags x hmem (of_decide_eq_true hk)]
  rw [Engine.outstanding, hnone, hactive]
  rfl

theorem orphans_free_eq_zero {e : Engine} {k : DriveTag}
    (h : ∀ x ∈ e.tags, x.tag ≠ k → x.isOrphan = false) : (e.free k).orphans = 0 := by
  refine List.length_eq_zero_iff.2 (List.filter_eq_nil_iff.2 fun x hx => ?_)
  obtain ⟨hmem, hk⟩ := List.mem_filter.1 hx
  simp [h x hmem (of_decide_eq_true hk)]

/-! ### The commit and the arbiter after it -/

/-- Slot `i` of `s` has begun its commit toward `o`, the store has become `store`, and the arbiter has served
the engine `e`. -/
structure SlotCommitted (s : State) (i : Slot) (e : Engine) (o : Owner) (path : CommitPath) (store : Store)
    (t : State) : Prop where
  slot : t.slot i = (s.slot i).begin o path
  store : t.store = store
  windows : ∀ w, t.window w = if (s.window w).onSlot i = true then (s.window w).clear .commit else s.window w
  served : (s.engine i).probeRequest = false → (s.bay i).state = .ready → s.Serves i e [] t
  closed : (s.engine i).probeRequest = false → (s.bay i).state ≠ .ready →
    t.engine i = e ∧ t.driveOut = s.driveOut
  bays : t.bays = s.bays
  notices : t.notices = s.notices
  others : ∀ j, j ≠ i → t.slot j = s.slot j ∧ t.engine j = s.engine j

/-- The commit step in a store that takes its update (R7, R76, R160): a slot record, the windows of the slot and
the store change, and nothing else. -/
structure CommitAccepted (s : State) (i : Slot) (o : Owner) (path : CommitPath) (store : Store) (t : State) :
    Prop where
  slot : ∀ j, t.slot j = if j = i then (s.slot i).begin o path else s.slot j
  windows : ∀ w, t.window w = if (s.window w).onSlot i = true then (s.window w).clear .commit else s.window w
  store : t.store = store
  frame : { t with slots := s.slots, windows := s.windows, store := s.store } = s

theorem startCommit_accepted {s : State} {i : Slot} {o : Owner} {store : Store} (path : CommitPath)
    (h : s.store.Accepts (s.commitUpdate i o) s.now store) :
    CommitAccepted s i o path store (startCommit i o path s) := by
  rw [startCommit_accepts h]
  exact ⟨beginCommit_slot s i o path, clearWindows_window (s.setSlot i _) i, rfl, rfl⟩

theorem TagReleased.accepts {s u : State} {i : Slot} {k : DriveTag} {o : Owner} {store : Store}
    (h : TagReleased s i k u) (hstore : s.store.Accepts (s.commitUpdate i o) s.now store) :
    u.store.Accepts (u.commitUpdate i o) u.now store := by
  have hsame : u.store = s.store := (congrArg State.store h.frame :)
  have hnow : u.now = s.now := (congrArg State.now h.frame :)
  rw [h.commitUpdate_eq, hsame, hnow]
  exact hstore

/-- The arbiter after the commit step touches the engines, the drive links and the sweep alone. -/
theorem CommitAccepted.arbiter_frame {u v : State} {i : Slot} {o : Owner} {path : CommitPath} {store : Store}
    (h : CommitAccepted u i o path store v) : { v.arbiter i with
      slots := u.slots, windows := u.windows, store := u.store
      engines := u.engines, driveOut := u.driveOut, sweep := u.sweep } = u :=
  (congrArg (fun w : State => { w with
      slots := u.slots, windows := u.windows, store := u.store
      engines := u.engines, driveOut := u.driveOut, sweep := u.sweep }) (Machine.arbiter_frame v i) :).trans
    (congrArg (fun w : State => { w with
      engines := u.engines, driveOut := u.driveOut, sweep := u.sweep }) h.frame :)

/-- The commit step in a store that takes the update, and the arbiter with the freed tag (R7, R55, R160). -/
theorem TagReleased.commits {s u v : State} {i : Slot} {k : DriveTag} {o : Owner} {path : CommitPath}
    {store : Store} (h : TagReleased s i k u) (hv : CommitAccepted u i o path store v) :
    SlotCommitted s i ((s.engine i).free k) o path store (v.arbiter i) := by
  have harbiter := Machine.arbiter_frame v i
  have hframe := hv.frame
  have hslot : ∀ j, (v.arbiter i).slot j = if j = i then (s.slot i).begin o path else s.slot j := fun j => by
    have hkept : (v.arbiter i).slot j = v.slot j := (congrArg (fun w => State.slot w j) harbiter :)
    rw [hkept, hv.slot, h.slot_eq, h.slot_eq]
  have hengine : ∀ j, v.engine j = u.engine j := fun j => (congrArg (fun w => State.engine w j) hframe :)
  have hfree : v.engine i = (s.engine i).free k := (hengine i).trans h.engine
  have hrequest : (v.engine i).probeRequest = (s.engine i).probeRequest := (congrArg Engine.probeRequest hfree :)
  have hbay : v.bay i = s.bay i := ((congrArg (fun w => State.bay w i) hframe :) : v.bay i = u.bay i).trans
    (h.bay_eq i)
  have hall := (congrArg (fun w : State => { w with
    engines := s.engines, ports := s.ports, reports := s.reports, batches := s.batches }) hv.arbiter_frame :).trans
    h.frame
  have hnow : v.now = s.now := ((congrArg State.now hframe :) : v.now = u.now).trans (congrArg State.now h.frame :)
  have hout : v.driveOut = s.driveOut :=
    ((congrArg State.driveOut hframe :) : v.driveOut = u.driveOut).trans (congrArg State.driveOut h.frame :)
  refine ⟨(hslot i).trans (if_pos rfl), ?_, fun w => ?_, fun hno hready => ?_, fun hno hready => ?_,
    (congrArg State.bays hall :), (congrArg State.notices hall :), fun j hj => ⟨(hslot j).trans (if_neg hj), ?_⟩⟩
  · exact ((congrArg State.store harbiter :) : (v.arbiter i).store = v.store).trans hv.store
  · have hwindow : u.window w = s.window w := (congrArg (fun x => State.window x w) h.frame :)
    have hkept : (v.arbiter i).window w = v.window w := (congrArg (fun x => State.window x w) harbiter :)
    rw [hkept, hv.windows, hwindow]
  · obtain ⟨hserves, -⟩ := arbiter_serves (s := v) (i := i) (by rw [hbay]; exact hready) (hrequest.trans hno)
    exact hfree ▸ hserves.congr hnow hout
  · rw [arbiter_closed (by rw [hbay]; exact hready) (.inr (hrequest.trans hno))]
    exact ⟨hfree, hout⟩
  · rw [arbiter_engine_other hj, hengine, h.others j hj]

/-! ### The two completions that commit a slot -/

section
variable {s : State} {i : Slot} {tag : Nat} {k : DriveTag} {c : Command} {d : Tick}

/-- The last ORPHANED entry of a DRAINING slot (R59, R91). -/
theorem driveCompletion_lastOrphan {n : Node} (hp : (s.slot i).phase = .draining)
    (hb : (s.slot i).batch = some n) (hentry : (s.engine i).entry tag = some ⟨k, .orphaned c d⟩)
    (hlast : ∀ x ∈ (s.engine i).tags, x.tag ≠ k → x.isOrphan = false) (hr : (s.bay i).state ≠ .resetting)
    (st : BitVec 16) (fp : Fingerprint) (cap : Lba) :
    driveCompletion i tag st fp cap s = (startCommit i (some n) .takeover
      (((s.fillReport i c.tag (if st = 0 then .doneGood else .doneError st)).setEngine i
        ((s.engine i).free k)).setMember n i (fun m => { m with status := .committing }))).arbiter i := by
  have hreleased := TagReleased.after_fillReport s i k c.tag (if st = 0 then .doneGood else .doneError st)
  have hengine : (s.fillReport i c.tag (if st = 0 then .doneGood else .doneError st)).engine i = s.engine i :=
    (congrArg (fun w => State.engine w i) (fillReport_frame s i c.tag _) :)
  unfold driveCompletion
  rw [hentry]
  dsimp only
  unfold completeOrphan
  dsimp only
  rw [hengine, drainCheck_commits (by rw [hreleased.slot_eq]; exact hp) (by rw [hreleased.slot_eq]; exact hb)
    (by rw [hreleased.engine]; exact orphans_free_eq_zero hlast) (by rw [hreleased.bay_eq]; exact hr)]

/-- The last outstanding command of the owner of a HANDING slot (R18, R58). -/
theorem driveCompletion_lastOfOwner {o : Owner} (hp : (s.slot i).phase = .handing)
    (ht : (s.slot i).target = some o) (ho : (s.slot i).owner = some c.node)
    (hentry : (s.engine i).entry tag = some ⟨k, .active c d⟩)
    (hlast : ∀ x ∈ (s.engine i).tags, x.tag ≠ k → x.activeOf c.node = false)
    (hwaiting : ∀ w ∈ (s.engine i).waiting, w.node ≠ c.node) (st : BitVec 16) (fp : Fingerprint) (cap : Lba) :
    driveCompletion i tag st fp cap s = (startCommit i o (if o.isSome then .handover else .release)
      ((s.sendCpl c.node i c.tag (if st = 0 then .good else .driveError) st).setEngine i
        ((s.engine i).free k))).arbiter i := by
  have hreleased := TagReleased.after_sendCpl s i k c.node c.tag (if st = 0 then .good else .driveError) st
  have hengine : (s.sendCpl c.node i c.tag (if st = 0 then .good else .driveError) st).engine i = s.engine i :=
    (congrArg (fun w => State.engine w i) (sendCpl_frame s c.node i c.tag _ st) :)
  unfold driveCompletion
  rw [hentry]
  dsimp only
  unfold completeActive
  dsimp only
  rw [hengine, handingCheck_commits (x := c.node) (o := o) (by rw [hreleased.slot_eq]; exact hp)
    (by rw [hreleased.slot_eq]; exact ho) (by rw [hreleased.slot_eq]; exact ht)
    (by rw [hreleased.engine]; exact outstanding_free_eq_zero hlast hwaiting)]

end

/-- The members of a slot that takes a status have it, in any state that keeps the batch. -/
theorem setMember_status {s t : State} {n : Node} {i : Slot} {st : MemberStatus} {m : Member}
    (ht : t.batch n = (s.setMember n i (fun k => { k with status := st })).batch n)
    (hm : m ∈ (t.batch n).members) (hi : m.slot = i) : m.status = st := by
  rw [ht, setMember_members] at hm
  obtain ⟨k, -, rfl⟩ := mem_updateMember.1 hm
  by_cases hk : k.slot = i
  · rw [if_pos hk]
  · rw [if_neg hk] at hi
    exact absurd hi hk

/-- Settles O33: the completion frees its tag (`TagReleased`), nothing is left outstanding, so the slot commits
(`driveCompletion_lastOrphan`, `driveCompletion_lastOfOwner`), and the arbiter follows (`TagReleased.commits`). -/
theorem lastCompletionCommitsTheSlot : Obligations.LastCompletionCommitsTheSlot := by
  rintro s i tag st fp cap k c d hrun e rfl committed hcommitted
  have settled : ∀ {o path store t}, SlotCommitted s i ((s.engine i).free k) o path store t →
      committed o path store t := fun h => (hcommitted _ _ _ _).2
    ⟨h.slot, h.store, h.windows, fun hno => ⟨h.served hno, h.closed hno⟩, h.bays, h.notices, h.others⟩
  refine ⟨fun n store hp hb hentry hlast hr hstore => ?_, fun o store hp ht ho hentry hlast hwaiting hstore => ?_⟩
  · have hfilled := fillReport_frame s i c.tag (if st = 0 then .doneGood else .doneError st)
    have hreleased := (TagReleased.after_fillReport s i k c.tag
      (if st = 0 then .doneGood else .doneError st)).setMember n (fun m => { m with status := .committing })
    have hbegun := startCommit_accepted .takeover (hreleased.accepts hstore)
    have hframe := hbegun.arbiter_frame
    refine ⟨_, next_whenRunning hrun (driveCompletion_lastOrphan hp hb hentry hlast hr st fp cap),
      settled (hreleased.commits hbegun), ?_, fun r hrep => ?_, fun m hm hi =>
        setMember_status (congrArg (fun w => State.batch w n) hframe :) hm hi⟩
    · exact (congrArg State.ports hframe :).trans (congrArg State.ports hfilled :)
    · exact (congrArg (fun w => State.report w i) hframe :).trans (fillReport_report hrep c.tag _)
  · have hsent := sendCpl_frame s c.node i c.tag (if st = 0 then .good else .driveError) st
    have hreleased := TagReleased.after_sendCpl s i k c.node c.tag (if st = 0 then .good else .driveError) st
    have hbegun := startCommit_accepted (if o.isSome then .handover else .release) (hreleased.accepts hstore)
    have hframe := hbegun.arbiter_frame
    refine ⟨_, next_whenRunning hrun (driveCompletion_lastOfOwner hp ht ho hentry hlast hwaiting st fp cap),
      settled (hreleased.commits hbegun), (congrArg State.reports hframe :).trans (congrArg State.reports hsent :),
      (congrArg State.ports hframe :).trans ?_⟩
    by_cases hup : (s.port c.node).state = .up
    · exact (congrArg State.ports (cpl_up hup i c.tag _ st)).trans (if_pos hup).symm
    · exact (congrArg State.ports (cpl_lost hup i c.tag _ st)).trans (if_neg hup).symm

end Sys2Proof.Machine
end

section
/-! READ_REPORT and DISCARD_REPORT (R109, R110). -/

namespace Sys2Proof.Machine

section
variable {s : State} {n : Node} {i : Slot} {r : Report}

/-! ### The order of R110 -/

theorem judgeDiscard_noReport (n : Node) (h : s.report i = none) : judgeDiscard n i s = .noReport := by
  unfold judgeDiscard
  rw [h]

theorem judgeDiscard_noLease (h : s.report i = some r) (hlive : s.live n = false) :
    judgeDiscard n i s = .noLease := by
  unfold judgeDiscard
  rw [h]
  exact if_pos (by simp [hlive])

theorem judgeDiscard_notOwner (h : s.report i = some r) (hlive : s.live n = true) (hn : r.newOwner ≠ n) :
    judgeDiscard n i s = .notOwner := by
  unfold judgeDiscard
  rw [h]
  exact (if_neg (by simp [hlive])).trans (if_pos hn)

theorem judgeDiscard_wrongState (h : s.report i = some r) (hlive : s.live n = true) (hn : r.newOwner = n)
    (hc : r.closing = none) : judgeDiscard n i s = .wrongState := by
  unfold judgeDiscard
  rw [h]
  exact (if_neg (by simp [hlive])).trans ((if_neg (not_not_intro hn)).trans (if_pos (by simp [hc])))

theorem judgeDiscard_done (h : s.report i = some r) (hlive : s.live n = true) (hn : r.newOwner = n)
    (hc : r.closing.isSome = true) : judgeDiscard n i s = .done := by
  unfold judgeDiscard
  rw [h]
  have hfinal : ¬r.closing.isNone = true := by simp [Option.isNone_eq_false_iff.2 hc]
  exact (if_neg (by simp [hlive])).trans ((if_neg (not_not_intro hn)).trans (if_neg hfinal))

/-! ### The two requests on a port that takes them -/

theorem discardReport_refused (ht : s.Takes n) (id : BitVec 16) {res : Result} (hj : judgeDiscard n i s = res)
    (hres : res ≠ .done) : exec (.discardReport n id i) s = .next (s.answered n id 0x35 res []) := by
  refine next_whenUp ht ?_
  dsimp only
  rw [hj, if_neg hres]
  exact reply_up ht.2 _ _ _ _

theorem discardReport_taken (ht : s.Takes n) (id : BitVec 16) (hj : judgeDiscard n i s = .done) :
    exec (.discardReport n id i) s = .next ((s.setReport i none).answered n id 0x35 .done []) := by
  refine next_whenUp ht ?_
  dsimp only
  rw [hj, if_pos rfl]
  exact reply_up (s := s.setReport i none) ht.2 _ _ _ _

theorem readReport_badRequest (ht : s.Takes n) (id : BitVec 16) (i : Slot) {first : Byte}
    (h : 47 < first.toNat) :
    exec (.readReport n id i first) s = .next (s.answered n id 0x34 .badRequest []) :=
  next_whenUp ht ((if_pos h).trans (reply_up ht.2 _ _ _ _))

theorem exec_readReport (ht : s.Takes n) (id : BitVec 16) (i : Slot) {first : Byte} (h : first.toNat ≤ 47) :
    exec (.readReport n id i first) s = .next (readReport n id i first.toNat s) :=
  next_whenUp ht (if_neg (Nat.not_lt.2 h))

theorem readReport_noReport (hup : (s.port n).state = .up) (id : BitVec 16) (first : Nat)
    (h : s.report i = none) : readReport n id i first s = s.answered n id 0x34 .noReport [] := by
  unfold readReport
  rw [h]
  exact reply_up hup _ _ _ _

theorem readReport_read (hup : (s.port n).state = .up) (id : BitVec 16) (first : Nat)
    (h : s.report i = some r) : readReport n id i first s =
      (s.setReport i (some { r with readToEnd := r.readToEnd || readsToEnd r n first })).answered n id 0x34 .done
        (readReportReply { r with readToEnd := r.readToEnd || readsToEnd r n first } first) := by
  unfold readReport
  rw [h]
  exact reply_up (s := s.setReport i _) hup _ _ _ _

end

/-- Settles O53: READ_REPORT by its index and whether there is a report, DISCARD_REPORT in R110's order. -/
theorem reportsAreReadAndDiscarded : Obligations.ReportsAreReadAndDiscarded := by
  refine fun s n id i ht => ⟨fun first => ⟨readReport_badRequest ht id i, fun hfirst hnone => ?_,
    fun r u hfirst hr hu => ?_⟩, fun answer hanswer => ?_⟩
  · rw [exec_readReport ht id i hfirst, readReport_noReport ht.2 id _ hnone]
  · subst hu
    rw [exec_readReport ht id i hfirst, readReport_read ht.2 id _ hr]
    rfl
  · have judged : ∀ {res}, judgeDiscard n i s = res → res ≠ .done → answer res := fun hj hres =>
      (hanswer _).2 (discardReport_refused ht id hj hres)
    refine ⟨fun hnone => judged (judgeDiscard_noReport n hnone) nofun, fun r hr =>
      ⟨fun hlive => judged (judgeDiscard_noLease hr hlive) nofun,
        fun hlive hn => judged (judgeDiscard_notOwner hr hlive hn) nofun,
        fun hlive hn hc => judged (judgeDiscard_wrongState hr hlive hn hc) nofun,
        fun hlive hn hc => discardReport_taken ht id (judgeDiscard_done hr hlive hn hc)⟩⟩

end Sys2Proof.Machine
end

section
/-! The node requests on a bay (R124 to R127): HOLD, UNHOLD, CLEAR_FAULT and ADOPT, each refused in its rule's
order or taken. -/

namespace Sys2Proof.Machine

section
variable {s : State} {n : Node} {i : Slot}

/-! ### HOLD (R125) -/

theorem judgeHold_noLease (h : s.live n = false) (i : Slot) : judgeHold n i s = .noLease := by
  simp [judgeHold, h]

theorem judgeHold_wrongState (h : s.live n = true) (hu : (s.slot i).phase ≠ .unowned)
    (ho : (s.slot i).phase ≠ .owned) : judgeHold n i s = .wrongState := by
  unfold judgeHold
  cases hp : (s.slot i).phase with
  | unowned => exact absurd hp hu
  | owned => exact absurd hp ho
  | claimed | draining | handing | committing => simp [h, hp]

theorem judgeHold_notOwner (h : s.live n = true) (hp : (s.slot i).phase = .owned)
    (ho : (s.slot i).owner ≠ some n) : judgeHold n i s = .notOwner := by
  simp [judgeHold, h, hp, ho]

/-- R125 items 1 to 3 passed, the bay decides. -/
theorem judgeHold_admitted (h : s.live n = true)
    (hp : (s.slot i).phase = .unowned ∨ (s.slot i).phase = .owned ∧ (s.slot i).owner = some n) :
    judgeHold n i s =
      if s.resettable i = false then .busy else if (s.engine i).busy = true then .busy else .done := by
  rcases hp with hp | ⟨hp, ho⟩
  · simp [judgeHold, h, hp]
  · simp [judgeHold, h, hp, ho]

theorem hold_refused (ht : s.Takes n) (id : BitVec 16) {r : Result} (hj : judgeHold n i s = r)
    (hr : r ≠ .done) : exec (.hold n id i) s = .next (s.answered n id 0x24 r []) := by
  refine next_whenUp ht ?_
  dsimp only
  rw [hj, if_neg hr]
  exact reply_up ht.2 _ _ _ _

theorem hold_taken (ht : s.Takes n) (id : BitVec 16) (hj : judgeHold n i s = .done) :
    exec (.hold n id i) s = .next ((s.holdBay i).answered n id 0x24 .done []) := by
  refine next_whenUp ht ?_
  dsimp only
  rw [hj, if_pos rfl]
  exact reply_up (s := s.holdBay i) ht.2 _ _ _ _

/-! ### UNHOLD and CLEAR_FAULT (R126) -/

/-- R126 item 1: a slot with no owner is anyone's, an owned one is its owner's, and the partner's while the
owner is gone. -/
theorem mayRelease_iff : s.mayRelease n i = true ↔ (s.slot i).owner = none ∨ (s.slot i).owner = some n ∨
    (s.slot i).owner = some n.partner ∧ s.gone n.partner = true := by
  unfold State.mayRelease
  cases ho : (s.slot i).owner with
  | none => simp
  | some x =>
    rcases x.eq_or_partner n with rfl | rfl
    · simp
    · simp

theorem judgeBringUp_noLease (h : s.live n = false) (want : BayState) (i : Slot) :
    judgeBringUp want n i s = .noLease := by
  simp [judgeBringUp, h]

theorem judgeBringUp_notOwner (h : s.live n = true) (hm : s.mayRelease n i = false) (want : BayState) :
    judgeBringUp want n i s = .notOwner := by
  simp [judgeBringUp, h, hm]

theorem judgeBringUp_wrongState {want : BayState} (h : s.live n = true) (hm : s.mayRelease n i = true)
    (hb : (s.bay i).state ≠ want) : judgeBringUp want n i s = .wrongState := by
  simp [judgeBringUp, h, hm, hb]

theorem judgeBringUp_takes {want : BayState} (h : s.live n = true) (hm : s.mayRelease n i = true)
    (hb : (s.bay i).state = want) : judgeBringUp want n i s = .done := by
  simp [judgeBringUp, h, hm, hb]

theorem bringUpRequest_refused {want : BayState} (hup : (s.port n).state = .up) (code : Byte) (id : BitVec 16)
    {r : Result} (hj : judgeBringUp want n i s = r) (hr : r ≠ .done) :
    bringUpRequest want code n id i s = s.answered n id code r [] := by
  unfold bringUpRequest
  dsimp only
  rw [hj, if_neg hr]
  exact reply_up hup _ _ _ _

theorem bringUpRequest_taken {want : BayState} (hup : (s.port n).state = .up) (code : Byte) (id : BitVec 16)
    (hj : judgeBringUp want n i s = .done) : bringUpRequest want code n id i s =
      (s.setBay i ((s.bay i).bringUp s.now)).answered n id code .done [] := by
  unfold bringUpRequest
  dsimp only
  rw [hj, if_pos rfl]
  exact reply_up (s := s.setBay i ((s.bay i).bringUp s.now)) hup _ _ _ _

/-! ### ADOPT (R127) -/

theorem judgeAdopt_noLease (h : s.live n = false) (i : Slot) : judgeAdopt n i s = .noLease := by
  simp [judgeAdopt, h]

theorem judgeAdopt_notOwner (h : s.live n = true) (ho : (s.slot i).owner ≠ some n) :
    judgeAdopt n i s = .notOwner := by
  simp [judgeAdopt, h, ho]

theorem judgeAdopt_wrongPhase (h : s.live n = true) (ho : (s.slot i).owner = some n)
    (h1 : (s.slot i).phase ≠ .owned) (h2 : (s.slot i).phase ≠ .handing) :
    judgeAdopt n i s = .wrongState := by
  simp [judgeAdopt, h, ho, h1, h2]

/-- R127 items 1 to 3 passed, the bay decides. -/
theorem judgeAdopt_admitted (h : s.live n = true) (ho : (s.slot i).owner = some n)
    (hp : (s.slot i).phase = .owned ∨ (s.slot i).phase = .handing) :
    judgeAdopt n i s = if (s.bay i).state ≠ .suspect then .wrongState else .done := by
  rcases hp with hp | hp <;> simp [judgeAdopt, h, ho, hp]

theorem adopt_refused (ht : s.Takes n) (id : BitVec 16) {r : Result} (hj : judgeAdopt n i s = r)
    (hr : r ≠ .done) : exec (.adopt n id i) s = .next (s.answered n id 0x26 r []) := by
  refine next_whenUp ht ?_
  dsimp only
  rw [hj, if_neg hr]
  exact reply_up ht.2 _ _ _ _

/-- R161: while the store is FAULTED an update is not queued. -/
theorem queueUpdate_faulted (h : s.store.mode = .faulted) (i : Slot) (w : Bool) : s.queueUpdate i w = s := by
  unfold State.queueUpdate
  rw [h]

/-- R127: the bay of an adopted drive. -/
def Bay.adopted (b : Bay) (fp : Fingerprint) : Bay :=
  { b with state := .ready, recorded := some fp, presented := none }

/-- R127: at a quiet bay an ADOPT is the new bay record and the queued update; the arbiter has nothing to serve. -/
theorem adoptDrive_quiet {fp : Fingerprint} (hp : (s.bay i).presented = some fp) (hq : s.Quiet i) :
    s.adoptDrive i = (s.setBay i ((s.bay i).adopted fp)).queueUpdate i false := by
  have hengine : ((s.setBay i ((s.bay i).adopted fp)).queueUpdate i false).engine i = s.engine i :=
    (congrArg (fun u => State.engine u i) (queueUpdate_frame (s.setBay i ((s.bay i).adopted fp)) i false) :)
  have hquiet : ((s.setBay i ((s.bay i).adopted fp)).queueUpdate i false).Quiet i := by
    unfold State.Quiet
    rw [hengine]
    exact hq
  unfold State.adoptDrive
  dsimp only
  rw [hp]
  exact arbiter_quiet hquiet

theorem adopt_taken (ht : s.Takes n) (id : BitVec 16) (hj : judgeAdopt n i s = .done) {fp : Fingerprint}
    (hp : (s.bay i).presented = some fp) (hq : s.Quiet i) : exec (.adopt n id i) s =
      .next (((s.setBay i ((s.bay i).adopted fp)).queueUpdate i false).answered n id 0x26 .done
        (u64 fp.toNat)) := by
  refine next_whenUp ht ?_
  dsimp only
  rw [hj, if_pos rfl, adoptDrive_quiet hp hq]
  have hframe := queueUpdate_frame (s.setBay i ((s.bay i).adopted fp)) i false
  generalize (s.setBay i ((s.bay i).adopted fp)).queueUpdate i false = v at hframe ⊢
  have hport : v.port n = s.port n := (congrArg (fun u => State.port u n) hframe :)
  have hbay : v.bay i = (s.bay i).adopted fp :=
    ((congrArg (fun u => State.bay u i) hframe :) : v.bay i = _).trans (State.setBay_bay_same s i _)
  rw [hbay, reply_up (by rw [hport]; exact ht.2)]
  rfl

end

/-- Settles O41: HOLD is judged in R125's order, UNHOLD and CLEAR_FAULT in R126's, the two by one request
(`bringUpRequest`). -/
theorem holdUnholdAndClearFault : Obligations.HoldUnholdAndClearFault := by
  intro s n id i ht may hmay hold unhold clear hhold hunhold hclear
  rw [← mayRelease_iff] at hmay
  have held : ∀ {r}, judgeHold n i s = r → r ≠ .done → hold r :=
    fun hj hr => (hhold _).2 (hold_refused ht id hj hr)
  have unheld : ∀ {r}, judgeBringUp .held n i s = r → r ≠ .done → unhold r :=
    fun hj hr => (hunhold _).2 (next_whenUp ht (bringUpRequest_refused ht.2 0x25 id hj hr))
  have cleared : ∀ {r}, judgeBringUp .failed n i s = r → r ≠ .done → clear r :=
    fun hj hr => (hclear _).2 (next_whenUp ht (bringUpRequest_refused ht.2 0x27 id hj hr))
  refine ⟨fun hl => ⟨held (judgeHold_noLease hl i) nofun, unheld (judgeBringUp_noLease hl _ i) nofun,
    cleared (judgeBringUp_noLease hl _ i) nofun⟩,
    fun hl => ⟨fun hu ho => held (judgeHold_wrongState hl hu ho) nofun,
    fun hp ho => held (judgeHold_notOwner hl hp ho) nofun, fun hp => ?_, fun hno => ?_, fun hm => ?_⟩⟩
  · have hjudge := judgeHold_admitted hl hp
    refine ⟨fun h1 h2 => held (hjudge.trans (if_pos (by simp [State.resettable, h1, h2]))) nofun, fun hb => ?_⟩
    rw [if_neg (by simp [(Bay.resettable_iff s i).2 hb])] at hjudge
    exact ⟨fun hbusy => held (hjudge.trans (if_pos hbusy)) nofun,
      fun hfree => hold_taken ht id (hjudge.trans (if_neg (by simp [hfree])))⟩
  · have hm : s.mayRelease n i = false := Bool.eq_false_iff.2 (mt hmay.2 hno)
    exact ⟨unheld (judgeBringUp_notOwner hl hm _) nofun, cleared (judgeBringUp_notOwner hl hm _) nofun⟩
  · have hm := hmay.1 hm
    refine ⟨fun hb => unheld (judgeBringUp_wrongState hl hm hb) nofun,
      fun hb => cleared (judgeBringUp_wrongState hl hm hb) nofun, ?_⟩
    rintro b rfl
    exact ⟨fun hb => next_whenUp ht (bringUpRequest_taken ht.2 0x25 id (judgeBringUp_takes hl hm hb)),
      fun hb => next_whenUp ht (bringUpRequest_taken ht.2 0x27 id (judgeBringUp_takes hl hm hb))⟩

/-- Settles O42: ADOPT is judged in R127's order, and a taken one leaves the arbiter of the quiet bay nothing to
serve (`adoptDrive_quiet`). -/
theorem adoptRecordsThePresentedDrive : Obligations.AdoptRecordsThePresentedDrive := by
  intro s n id i ht answer hanswer
  have judged : ∀ {r}, judgeAdopt n i s = r → r ≠ .done → answer r :=
    fun hj hr => (hanswer _).2 (adopt_refused ht id hj hr)
  refine ⟨fun hl => judged (judgeAdopt_noLease hl i) nofun, fun hl =>
    ⟨fun ho => judged (judgeAdopt_notOwner hl ho) nofun, fun ho =>
      ⟨fun h1 h2 => judged (judgeAdopt_wrongPhase hl ho h1 h2) nofun, fun hp => ?_⟩⟩⟩
  have hjudge := judgeAdopt_admitted hl ho hp
  refine ⟨fun hb => judged (hjudge.trans (if_pos hb)) nofun, ?_⟩
  rintro fp hb hpresented hquiet t rfl
  have htaken := adopt_taken ht id (hjudge.trans (if_neg (not_not_intro hb))) hpresented hquiet
  refine ⟨fun hfaulted => ?_, fun st hst => ?_⟩
  · rw [htaken, queueUpdate_faulted (s := s.setBay i ((s.bay i).adopted fp)) hfaulted]
    rfl
  · rw [htaken, State.queueUpdate_of_accepts (st := st)]
    · rfl
    · rw [State.setBay_bay_same, State.setBay_slot, ho]
      exact hst

end Sys2Proof.Machine
end

section
/-! A bay from its presence input to the end of its bring-up (R114 to R118), and the link losses, requests and
limits that begin no link reset (R117, R122, R123, R128). -/

namespace Sys2Proof.Machine

section
variable {s : State} {i : Slot}

/-! ### Presence (R114, R115) -/

theorem changePresence_same (s : State) (i : Slot) : changePresence i (s.bay i).input s = s := by
  unfold changePresence
  exact if_pos rfl

theorem changePresence_running (hrun : s.running = true) {level : Bool} (h : (s.bay i).input ≠ level) :
    changePresence i level s = s.setBay i { s.bay i with
      input := level, debounce := if level = (s.bay i).present then none else some (later s.now 2000) } := by
  unfold changePresence
  exact (if_neg h).trans (if_pos hrun)

theorem exec_insertion (hrun : s.running = true) (hd : (s.bay i).debounce = some s.now)
    (hin : (s.bay i).input = true) (hs : (s.bay i).state = .empty) :
    exec (.insertion i) s = .next (insert i s) :=
  next_due hrun (by simp [State.debounced, hd, hin, hs]) rfl

/-! ### The end of bring-up (R113, R117, R118) -/

theorem driveReady_awaited (h : (s.bay i).awaits = .readySignal) : driveReady i s =
    (s.setBay i { s.bay i with awaits := .identity }).toDrive i [.identifyUntagged] := by
  unfold driveReady
  exact if_pos h

theorem goodAnswer_bad {st : BitVec 16} {cap : Lba} (h : st ≠ 0 ∨ cap = 0) : goodAnswer st cap = false := by
  unfold goodAnswer
  rcases h with h | h
  · rw [decide_eq_false h, Bool.false_and]
  · rw [decide_eq_false (not_not_intro h), Bool.and_false]

theorem identifyAnswer_bad (ha : (s.bay i).awaits = .identity) {st : BitVec 16} {cap : Lba}
    (h : st ≠ 0 ∨ cap = 0) (fp : Fingerprint) : identifyAnswer i st fp cap s =
      (s.setBay i { s.bay i with identifyRetries := satInc (s.bay i).identifyRetries }).toDrive i
        [.identifyUntagged] := by
  unfold identifyAnswer
  rw [if_pos ha, goodAnswer_bad h]
  rfl

/-- R118: the answer of the recorded drive leaves the recorded fingerprint as it is. -/
theorem Bay.identified_recorded {b : Bay} {fp : Fingerprint} (h : b.recorded = some fp) (cap : Lba) :
    b.identified fp cap = { b with
      state := .ready, presented := none, capacity := some cap, bringupDeadline := none
      resetDeadline := none, resetCause := none, awaits := .nothing } := by
  unfold Bay.identified
  rw [← h]

/-- R118: the recorded drive answers at a quiet bay. -/
theorem exec_identifyAnswer_recorded (hrun : s.running = true) (ha : (s.bay i).awaits = .identity) {cap : Lba}
    (hc : cap ≠ 0) (hstill : s.Still i) (hquiet : s.Quiet i) {fp : Fingerprint}
    (hr : (s.bay i).recorded = some fp) :
    exec (.identifyAnswer i 0 fp cap) s = .next (s.setBay i ((s.bay i).identified fp cap)) := by
  have hcompare : (s.setBay i (s.bay i).answered).compareIdentity i fp cap =
      s.setBay i ((s.bay i).identified fp cap) := compareIdentity_ready (.inl hr) cap
  rw [exec_identifyAnswer_still hrun ha hc hstill, hcompare,
    arbiter_quiet (s := s.setBay i ((s.bay i).identified fp cap)) hquiet]

/-! ### Link losses that begin no reset (R123) -/

theorem driveLinkLoss_bringup (h : (s.bay i).state = .bringup) : driveLinkLoss i s =
    s.setBay i { s.bay i with linkLosses := satInc (s.bay i).linkLosses, awaits := .readySignal } := by
  unfold driveLinkLoss
  simp only [h]

theorem driveLinkLoss_resetting (h : (s.bay i).state = .resetting) :
    driveLinkLoss i s = s.setBay i { s.bay i with awaits := .readySignal } := by
  unfold driveLinkLoss
  simp only [h]

theorem driveLinkLoss_closed
    (h : (s.bay i).state = .held ∨ (s.bay i).state = .failed ∨ (s.bay i).state = .empty) :
    driveLinkLoss i s = s := by
  unfold driveLinkLoss
  rcases h with h | h | h <;> simp only [h]

/-! ### The order of R128 -/

theorem judgeResetDrive_noLease {n : Node} (h : s.live n = false) (i : Slot) :
    judgeResetDrive n i s = .noLease := by
  simp [judgeResetDrive, h]

theorem judgeResetDrive_notOwner {n : Node} (h : s.live n = true) (ho : (s.slot i).owner ≠ some n)
    (hd : (s.slot i).phase ≠ .draining ∨ (s.slot i).batch ≠ some n) : judgeResetDrive n i s = .notOwner := by
  rcases hd with hd | hd <;> simp [judgeResetDrive, h, ho, hd]

theorem judgeResetDrive_wrongPhase {n : Node} (h : s.live n = true) (ho : (s.slot i).owner = some n)
    (h1 : (s.slot i).phase ≠ .owned) (h2 : (s.slot i).phase ≠ .handing) :
    judgeResetDrive n i s = .wrongState := by
  simp [judgeResetDrive, h, ho, h1, h2]

/-- R128 items 1 to 3 passed, by the owner of an OWNED or HANDING slot or by the claimant of a DRAINING one, the
bay decides. -/
theorem judgeResetDrive_admitted {n : Node} (h : s.live n = true)
    (hmay : (s.slot i).owner = some n ∧ ((s.slot i).phase = .owned ∨ (s.slot i).phase = .handing) ∨
      (s.slot i).owner ≠ some n ∧ (s.slot i).phase = .draining ∧ (s.slot i).batch = some n) :
    judgeResetDrive n i s = if (s.bay i).state = .resetting then .busy
      else if s.resettable i = false then .wrongState else .done := by
  rcases hmay with ⟨ho, hp | hp⟩ | ⟨ho, hp, hb⟩
  · simp [judgeResetDrive, h, ho, hp]
  · simp [judgeResetDrive, h, ho, hp]
  · simp [judgeResetDrive, h, ho, hp, hb]

theorem resetDrive_refused {n : Node} (ht : s.Takes n) (id : BitVec 16) {r : Result}
    (hj : judgeResetDrive n i s = r) (hr : r ≠ .done) :
    exec (.resetDrive n id i) s = .next (s.answered n id 0x29 r []) := by
  refine next_whenUp ht ?_
  dsimp only
  rw [hj, if_neg hr]
  exact reply_up ht.2 _ _ _ _

/-! ### The two limits (R117, R122) -/

theorem exec_bringupDeadline (hrun : s.running = true) (hs : (s.bay i).state = .bringup)
    (hd : (s.bay i).bringupDeadline = some s.now) :
    exec (.bringupDeadline i) s = .next (bringupFails i s) :=
  next_due hrun (by simp [hs, hd]) rfl

/-- A link reset that reaches its limit at a slot neither HANDING nor DRAINING commits nothing. -/
theorem resetFails_still (hstill : s.Still i) : ∃ v, resetFails i s = v ∧ v.slots = s.slots ∧
    v.bay i = { (s.bay i).fail with resetsFailed := satInc (s.bay i).resetsFailed } ∧
    v.engine i = { s.engine i with waiting := [] } ∧
    (∀ n, (s.port n).state = .up → (v.port n).unsent = (s.port n).unsent ++
      cplsFor n i .slotFaulted (s.slot i).generation (s.engine i).waiting) ∧
    ∀ j, j ≠ i → v.bay j = s.bay j := by
  obtain ⟨v, hv, hframe, -, hbay, hengine, hports, hoth⟩ := resetFails_spec s i
  have hpart : BayPart s i v := .of_butBay hframe (by rw [hbay]; rfl) hoth
  obtain ⟨hhanding, hdraining⟩ := hstill
  rw [handing_off (by rw [hpart.slot]; exact hhanding), drain_off (by rw [hpart.slot]; exact hdraining)] at hv
  exact ⟨v, hv, hpart.slots, hbay, hengine, hports, fun j hj => (hoth j hj).1⟩

/-- R122, beside `resetFails_still`: both nodes are told. -/
theorem resetFails_told (hstill : s.Still i) (n : Node) : (resetFails i s).notice n =
    (s.notice n).push { slot := some i, tick := s.now, body := .slotFaulted .resetLimit } := by
  have hframe := (withdraw_spec (s.setBay i (s.bay i).fail) i .slotFaulted).frame
  unfold resetFails
  dsimp only
  generalize (s.setBay i (s.bay i).fail).withdraw i .slotFaulted = u at hframe ⊢
  have hslot : u.slot i = s.slot i := (congrArg (fun x => State.slot x i) hframe :)
  have hnotice : u.notice n = s.notice n := (congrArg (fun x => State.notice x n) hframe :)
  have hnow : u.now = s.now := (congrArg State.now hframe :)
  obtain ⟨hhanding, hdraining⟩ := hstill
  rw [← hslot] at hhanding hdraining
  rw [handing_off (by exact hhanding), drain_off (by exact hdraining), raiseBoth_notice, State.setBay_notice,
    State.setBay_now, hnotice, hnow]

end

/-- Settles O35, event by event from the pin to the answer of the recorded drive. -/
theorem presenceStartsBringUpAndIdentityEndsIt : Obligations.PresenceStartsBringUpAndIdentityEndsIt := by
  refine ⟨fun s i => ⟨fun level hrun hne => ?_, ?_, fun hrun hd hin hs => exec_insertion hrun hd hin hs⟩,
    fun s i st fp cap hrun => ⟨fun ha => next_whenRunning hrun (driveReady_awaited ha),
      fun ha hbad => next_whenRunning hrun (identifyAnswer_bad ha hbad fp), ?_⟩⟩
  · exact congrArg Host.Outcome.next (changePresence_running hrun hne)
  · exact congrArg Host.Outcome.next (changePresence_same s i)
  · rintro ha rfl hc - hstill hquiet hr
    rw [exec_identifyAnswer_recorded hrun ha hc hstill hquiet hr, Bay.identified_recorded hr]

/-- Settles O39: a link loss by the bay's state, RESET_DRIVE in R128's order, and each limit when it is due. -/
theorem linkLossRefusalsAndLimits : Obligations.LinkLossRefusalsAndLimits := by
  refine ⟨fun s i hrun => ⟨fun hs => next_whenRunning hrun (driveLinkLoss_bringup hs),
    fun hs => next_whenRunning hrun (driveLinkLoss_resetting hs),
    fun hs => next_whenRunning hrun (driveLinkLoss_closed hs), fun n id ht answer hanswer => ?_⟩,
    fun s i hrun b hb => ⟨fun hs hd => ?_, fun hs hd hstill => ?_⟩⟩
  · have judged : ∀ {r}, judgeResetDrive n i s = r → r ≠ .done → answer r :=
      fun hj hr => (hanswer _).2 (resetDrive_refused ht id hj hr)
    refine ⟨fun hl => judged (judgeResetDrive_noLease hl i) nofun, fun hl =>
      ⟨fun ho hd => judged (judgeResetDrive_notOwner hl ho hd) nofun,
        fun ho h1 h2 => judged (judgeResetDrive_wrongPhase hl ho h1 h2) nofun, fun hmay => ?_⟩⟩
    have hjudge := judgeResetDrive_admitted hl hmay
    refine ⟨fun hs => judged (hjudge.trans (if_pos hs)) nofun, fun hs => judged (hjudge.trans ?_) nofun⟩
    rcases hs with hs | hs | hs | hs <;> simp [State.resettable, hs]
  · subst hb
    exact exec_bringupDeadline hrun hs hd
  · obtain ⟨v, hv, hslots, hbay, hengine, hports, hothers⟩ := resetFails_still hstill
    have htold := resetFails_told hstill
    rw [hv] at htold
    refine ⟨v, (exec_resetDeadline hrun hs hd).trans (congrArg _ hv), by rw [hbay, hb]; rfl, hengine, hports,
      fun n hon hmask hlen => ?_, hslots, hothers⟩
    rw [htold]
    exact (push_queue_eq _ hon hmask).trans (congrArg _ (if_pos hlen))

end Sys2Proof.Machine
end

section
/-! FETCH_NOTICES and SET_NOTICES (R137, R147, R148), and what the walk of a sweep and its end come to, equation by
equation (R132, R139). -/

namespace Sys2Proof.Machine

/-! ### The walk goes on, pauses or ends (R132, R139) -/

theorem runsFor_requester {w : Sweep} {r : SweepRun} {n : Node} (hstate : w.state ≠ .idle) (hrun : w.run = some r)
    (hreq : r.requester = n) : w.runsFor n = true := by
  simp [Sweep.runsFor, hstate, hrun, hreq]

/-- R129, R139: the sweep record when the sweep ends. -/
def Sweep.stop (w : Sweep) (reason : EndReason) (now : Tick) : Sweep :=
  { w with state := .idle, current := none, probe := none, holder := none, ended := some (reason, now) }

theorem releaseProbe_frame (s : State) : { s.releaseProbe with engines := s.engines } = s := by
  unfold State.releaseProbe
  split <;> rfl

/-- R139: the probe is released, the record stops and AUDIT_ENDED is raised. -/
theorem endSweep_run {s : State} {w : SweepRun} (hw : s.sweep.run = some w) (reason : EndReason) :
    endSweep reason s = (s.releaseProbe.setSweep (s.sweep.stop reason s.now)).raise w.requester none
      (.auditEnded reason w.issued w.pass) := by
  have hsweep : s.releaseProbe.sweep = s.sweep := (congrArg State.sweep (releaseProbe_frame s) :)
  have hnow : s.releaseProbe.now = s.now := (congrArg State.now (releaseProbe_frame s) :)
  unfold endSweep
  rw [hw]
  dsimp only
  rw [hsweep, hnow]
  rfl

/-- R139: the sweep `w` of the state `s` has ended. -/
structure SweepEnded (s : State) (w : SweepRun) (reason : EndReason) (t : State) : Prop where
  sweep : t.sweep = s.sweep.stop reason s.now
  notice : t.notice w.requester = (s.notice w.requester).push
    { slot := none, tick := s.now, body := .auditEnded reason w.issued w.pass }
  engines : t.engines = s.releaseProbe.engines
  frame : { t with engines := s.engines, sweep := s.sweep, notices := s.notices } = s

section
variable {s t : State} {w : SweepRun} {reason : EndReason}

theorem SweepEnded.port (h : SweepEnded s w reason t) (n : Node) : t.port n = s.port n :=
  (congrArg (fun u : State => u.port n) h.frame :)

theorem SweepEnded.slots (h : SweepEnded s w reason t) : t.slots = s.slots := (congrArg State.slots h.frame :)

theorem SweepEnded.bays (h : SweepEnded s w reason t) : t.bays = s.bays := (congrArg State.bays h.frame :)

end

theorem endSweep_ended {s : State} {w : SweepRun} (hw : s.sweep.run = some w) (reason : EndReason) :
    SweepEnded s w reason (endSweep reason s) := by
  have hframe := releaseProbe_frame s
  have hnow : s.releaseProbe.now = s.now := (congrArg State.now hframe :)
  have hnotice : s.releaseProbe.notice w.requester = s.notice w.requester :=
    (congrArg (fun u : State => u.notice w.requester) hframe :)
  rw [endSweep_run hw]
  refine ⟨rfl, ?_, rfl, (congrArg (fun u : State => { u with sweep := s.sweep, notices := s.notices }) hframe :)⟩
  exact (State.setNotice_notice_same _ _ _).trans (by rw [State.setSweep_notice, State.setSweep_now, hnotice, hnow])

theorem endSweepOf_on {s : State} {n : Node} (reason : EndReason) (h : s.sweep.runsFor n = true) :
    endSweepOf n reason s = endSweep reason s := if_pos h

theorem walkOn_ends {s : State} {w : SweepRun} {cur : Slot} {reason : EndReason} (hw : s.sweep.run = some w)
    (ha : advanceOf w cur = .ends reason) (k : Nat) : walkOn (k + 1) cur s = endSweep reason s := by
  unfold walkOn
  rw [hw]
  dsimp only
  rw [ha]

theorem walkOn_pauses {s : State} {w : SweepRun} {cur next : Slot} (hw : s.sweep.run = some w)
    (ha : advanceOf w cur = .pauses next) (k : Nat) :
    walkOn (k + 1) cur s = s.setSweep { s.sweep with state := .pausedStep, current := some next } := by
  unfold walkOn
  rw [hw]
  dsimp only
  rw [ha]

/-- R132: a STEPPED sweep whose budget is not reached pauses before its last slot. -/
theorem advanceOf_stepped {w : SweepRun} {i : Slot} (hbudget : w.budget = 0 ∨ w.issued.toNat < w.budget.toNat)
    (hmode : w.mode = .stepped) (hlast : i ≠ w.last) : advanceOf w i = .pauses (i + 1) := by
  unfold advanceOf
  rw [if_neg (by rintro ⟨h0, hle⟩; exact hbudget.elim h0 (Nat.not_lt.2 hle)), if_neg (fun h => hlast h.1),
    if_pos hmode]

/-! ### FETCH_NOTICES (R137, R147) -/

theorem fetchNotices_plain {s : State} {n : Node} (hup : (s.port n).state = .up) (h : s.sweep.state ≠ .pausedFull)
    (id : BitVec 16) : fetchNotices n id s = (s.setNotice n (s.notice n).fetch).answered n id 0x60 .done
      (listItem noticeRecord ((s.notice n).queue.take 8) ++ u8 ((s.notice n).queue.length - 8)) := by
  have hreply := reply_up (s := s.setNotice n (s.notice n).fetch) (by exact hup) id 0x60 .done
    (listItem noticeRecord ((s.notice n).queue.take 8) ++ u8 ((s.notice n).queue.length - 8))
  unfold fetchNotices
  simp only [h, decide_false, Bool.false_and, Bool.false_eq_true, if_false, State.setNotice_notice_same]
  rw [show (s.notice n).fetch.queue.length = (s.notice n).queue.length - 8 from List.length_drop, hreply]
  split <;> rfl

/-- R137, R147: of a PAUSED_FULL sweep the held result takes the first freed place, and the walk goes on. -/
theorem fetchNotices_full {s u : State} {n : Node} {w : SweepRun} {r : AuditResult} {i : Slot}
    (hstate : s.sweep.state = .pausedFull) (hrun : s.sweep.run = some w) (hreq : w.requester = n)
    (hheld : s.sweep.holder = some r) (hqueue : (s.notice n).queue ≠ [])
    (hu : (s.setNotice n (s.notice n).fetch).placeResult w r = u) (hup : (u.port n).state = .up)
    (hsweep : u.sweep.current = some i) (id : BitVec 16) :
    fetchNotices n id s = walkOn 33 i (u.answered n id 0x60 .done
      (listItem noticeRecord ((s.notice n).queue.take 8) ++ u8 (u.notice n).queue.length)) := by
  have hruns : s.sweep.runsFor n = true := runsFor_requester (by simp [hstate]) hrun hreq
  have hplace : (s.setNotice n (s.notice n).fetch).placeHeld n = u := by
    unfold State.placeHeld
    simp only [State.setNotice_sweep, hheld, hrun, hstate, hreq, and_self, if_true, hu]
  have htaken : (decide (s.sweep.state = .pausedFull) && s.sweep.runsFor n && s.sweep.holder.isSome &&
      !((s.notice n).queue.take 8).isEmpty) = true := by simp [hstate, hruns, hheld, hqueue]
  unfold fetchNotices
  dsimp only
  rw [htaken, if_pos rfl, hplace, reply_up hup]
  generalize hv : u.answered n id _ _ _ = v
  rw [show v.sweep.current = some i by rw [← hv]; exact hsweep]
  rfl

/-! ### SET_NOTICES (R148) -/

theorem setNotices_plain {s : State} {n : Node} (hup : (s.port n).state = .up) {on : Bool}
    (h : ((s.notice n).on && !on) = true → s.sweep.runsFor n = false) (id : BitVec 16) (mask : BitVec 32) :
    setNotices n id on mask s = (s.setNotice n ((s.notice n).set on mask)).answered n id 0x61 .done
      (flag on ++ u32 (mask &&& assignedKinds).toNat
        ++ u8 (if (s.notice n).on && !on then (s.notice n).queue.length else 0)) := by
  unfold setNotices
  dsimp only
  split
  · rename_i hoff
    rw [endSweepOf_off _ (by exact h hoff)]
    exact reply_up (by exact hup) _ _ _ _
  · exact reply_up (by exact hup) _ _ _ _

/-- R148: notices that stay on keep their queue. -/
theorem NoticeQueue.set_on {q : NoticeQueue} (h : q.on = true) (mask : BitVec 32) :
    q.set true mask = { q with mask := mask &&& assignedKinds } := by
  simp [NoticeQueue.set, h]

/-- R148: notices that are turned on, or are off afterwards, have an empty queue. -/
theorem NoticeQueue.set_fresh {q : NoticeQueue} {on : Bool} (h : on = false ∨ q.on = false) (mask : BitVec 32) :
    q.set on mask = { q with on := on, mask := mask &&& assignedKinds, queue := [], attention := false } := by
  rcases h with h | h <;> simp [NoticeQueue.set, h]

/-- R139, R148: the node's sweep ends when its notices are turned off. -/
theorem setNotices_endsSweep {s : State} {n : Node} (hup : (s.port n).state = .up) (hon : (s.notice n).on = true)
    {w : SweepRun} (hstate : s.sweep.state ≠ .idle) (hrun : s.sweep.run = some w) (hreq : w.requester = n)
    (id : BitVec 16) (mask : BitVec 32) : setNotices n id false mask s =
      (endSweep .noticesOff (s.setNotice n ((s.notice n).set false mask))).answered n id 0x61 .done
        (flag false ++ u32 (mask &&& assignedKinds).toNat ++ u8 (s.notice n).queue.length) := by
  have hoff : ((s.notice n).on && !false) = true := by rw [hon]; rfl
  have hended := endSweep_ended (s := s.setNotice n ((s.notice n).set false mask)) (by exact hrun) .noticesOff
  unfold setNotices
  dsimp only
  rw [hoff, if_pos rfl, if_pos rfl, endSweepOf_on _ (by exact runsFor_requester hstate hrun hreq)]
  exact reply_up ((congrArg Port.state (hended.port n)).trans hup) _ _ _ _

theorem push_off {q : NoticeQueue} (h : q.on = false) (x : Notice) :
    q.push x = { q with summary := q.summary ||| kindBit x.body } := by
  simp [NoticeQueue.push, h]

/-- Settles O20: each request is one equation (`fetchNotices_plain`, `fetchNotices_full`, `setNotices_plain`,
`setNotices_endsSweep`), then the walk pauses (`walkOn_pauses`) or the sweep ends (`endSweep_run`). -/
theorem noticesAreFetchedAndSet : Obligations.NoticesAreFetchedAndSet := by
  intro s n id ht
  have hset : ∀ {e : Byte} {on : Bool} {mask : BitVec 32} {t : State}, switchOf e = some on →
      setNotices n id on mask s = t → exec (.setNotices n id e mask) s = .next t := by
    intro e on mask t he h
    refine next_whenUp ht ?_
    rw [he]
    exact h
  refine ⟨fun hs => next_whenUp ht (fetchNotices_plain ht.2 hs id), ?_, fun mask hon => hset rfl ?_,
    fun mask hoff => hset rfl ?_, fun mask hruns => hset rfl ?_, ?_, fun e mask he => next_whenUp ht ?_⟩
  · intro w r i hstate hrun hreq hheld hcur hqueue hmode hlast hbudget
    subst hreq
    refine next_whenUp ht ((fetchNotices_full hstate hrun rfl hheld hqueue rfl (by exact ht.2) (by exact hcur)
      id).trans ?_)
    rw [walkOn_pauses (w := w.placed) rfl (advanceOf_stepped (.inl hbudget) hmode hlast)]
    unfold State.placeResult
    dsimp only
    rw [State.setNotice_notice_same, State.setNotice_setNotice, State.setSweep_notice,
      State.setNotice_notice_same]
    rw [show ((s.notice w.requester).fetch.queue ++ [r.notice]).length = (s.notice w.requester).queue.length - 8 + 1 by
      simp [NoticeQueue.fetch]]
    rfl
  · rw [setNotices_plain ht.2 (by simp), NoticeQueue.set_on hon, Bool.not_true, Bool.and_false]
    rfl
  · rw [setNotices_plain ht.2 (by simp), NoticeQueue.set_fresh (.inr hoff), Bool.not_true, Bool.and_false]
    rfl
  · rw [setNotices_plain ht.2 (fun _ => hruns), NoticeQueue.set_fresh (.inl rfl), Bool.not_false, Bool.and_true]
    rfl
  · intro mask w hon hstate hrun hreq
    subst hreq
    refine ⟨_, hset rfl (setNotices_endsSweep ht.2 hon hstate hrun rfl id mask), ?_⟩
    have hended := endSweep_ended (s := s.setNotice w.requester ((s.notice w.requester).set false mask)) (by exact hrun)
      .noticesOff
    refine ⟨hended.notice.trans ?_, hended.sweep, ?_, hended.slots, hended.bays⟩
    · rw [State.setNotice_notice_same, NoticeQueue.set_fresh (.inl rfl)]
      rfl
    · rw [answered_unsent, if_pos rfl, hended.port]
      rfl
  · rw [switchOf_none he]
    exact reply_up ht.2 _ _ _ _

end Sys2Proof.Machine
end

section
/-! The ends of a sweep (R131, R138, R139) and the refusals of the audit requests. -/

namespace Sys2Proof.Machine

/-! ### The order of R131 and R138 -/

section
variable {s : State} {n : Node}

theorem auditModeOf_unknown {mode : Byte} (h : mode = 0 ∨ 4 < mode.toNat) : auditModeOf mode = none := by
  unfold auditModeOf
  rw [if_neg (by rintro rfl; revert h; decide), if_neg (by rintro rfl; revert h; decide),
    if_neg (by rintro rfl; revert h; decide), if_neg (by rintro rfl; revert h; decide)]

theorem auditModeOf_known {mode : Byte} (h0 : mode ≠ 0) (h4 : mode.toNat ≤ 4) :
    ∃ m, auditModeOf mode = some m := by
  have hmode : mode = 1 ∨ mode = 2 ∨ mode = 3 ∨ mode = 4 := by bv_omega
  rcases hmode with rfl | rfl | rfl | rfl <;> exact ⟨_, rfl⟩

theorem judgeStart_noLease (hl : s.live n = false) : judgeStart n s = .noLease := by
  simp [judgeStart, hl]

theorem judgeStart_noticesOff (hl : s.live n = true) (hoff : (s.notice n).on = false) :
    judgeStart n s = .noticesOff := by
  simp [judgeStart, hl, hoff]

/-- R131 items 4 to 6: a live node with notices on, while the sweep `w` runs. -/
theorem judgeStart_running {w : SweepRun} (hl : s.live n = true) (hon : (s.notice n).on = true)
    (hstate : s.sweep.state ≠ .idle) (hrun : s.sweep.run = some w) :
    judgeStart n s = if w.requester = n ∧ w.mode = .once then .done else .busy := by
  unfold judgeStart
  rw [hl, hon, hrun]
  cases hs : s.sweep.state with
  | idle => exact absurd hs hstate
  | probing | pausedStep | pausedFull => rfl

theorem judgeSweep_idle (h : s.sweep.state = .idle) : judgeSweep n s = .wrongState := if_pos h

theorem judgeSweep_foreign (hstate : s.sweep.state ≠ .idle) (h : s.sweep.runsFor n = false) :
    judgeSweep n s = .notOwner := by
  simp [judgeSweep, hstate, h]

theorem judgeSweep_own (h : s.sweep.runsFor n = true) : judgeSweep n s = .done := by
  have hstate : s.sweep.state ≠ .idle := by
    rintro hidle
    simp [Sweep.runsFor, hidle] at h
  simp [judgeSweep, hstate, h]

/-! ### The requests on a port that takes them -/

theorem startAudit_badMode (ht : s.Takes n) (id : BitVec 16) (first last : Slot) {mode : Byte}
    (h : auditModeOf mode = none) (budget : Byte) :
    exec (.startAudit n id first last mode budget) s = .next (s.answered n id 0x50 .badRequest []) := by
  refine next_whenUp ht ?_
  rw [h]
  exact reply_up ht.2 _ _ _ _

theorem startAudit_refused (ht : s.Takes n) (id : BitVec 16) (first last : Slot) {mode : Byte} {m : AuditMode}
    (hm : auditModeOf mode = some m) (budget : Byte) {r : Result} (hj : judgeStart n s = r) (hr : r ≠ .done) :
    exec (.startAudit n id first last mode budget) s = .next (s.answered n id 0x50 r []) := by
  refine next_whenUp ht ?_
  rw [hm]
  dsimp only
  rw [hj, if_neg hr]
  exact reply_up ht.2 _ _ _ _

/-- R131: a START_AUDIT that is taken is answered with the number of slots and the results issued. -/
theorem startAudit_taken (ht : s.Takes n) (id : BitVec 16) (first last : Slot) (m : AuditMode) (budget : Byte)
    {t : State} (hj : judgeStart n s = .done) (hstart : startSweep n first last m budget s = t)
    (hup : (t.port n).state = .up) :
    exec (.startAudit n id first last (BitVec.ofNat 8 (auditModeCode m)) budget) s =
      .next (t.answered n id 0x50 .done (u8 (rangeCount first last) ++ countItem t.sweep.issued)) := by
  refine next_whenUp ht ?_
  rw [auditModeOf_code]
  dsimp only
  rw [if_pos hj, hstart]
  exact reply_up hup _ _ _ _

theorem stepAudit_refused (ht : s.Takes n) (id : BitVec 16) {r : Result} (hj : judgeSweep n s = r) (hr : r ≠ .done) :
    exec (.stepAudit n id) s = .next (s.answered n id 0x51 r []) := by
  refine next_whenUp ht ?_
  rw [hj, if_pos hr]
  exact reply_up ht.2 _ _ _ _

theorem stepAudit_notPaused (ht : s.Takes n) (id : BitVec 16) (hruns : s.sweep.runsFor n = true)
    (hstate : s.sweep.state ≠ .pausedStep) :
    exec (.stepAudit n id) s = .next (s.answered n id 0x51 .wrongState []) := by
  refine next_whenUp ht ?_
  rw [if_neg (not_not_intro (judgeSweep_own hruns))]
  split
  · rename_i hpaused _
    exact absurd hpaused hstate
  · exact reply_up ht.2 _ _ _ _

theorem stopAudit_refused (ht : s.Takes n) (id : BitVec 16) {r : Result} (hj : judgeSweep n s = r) (hr : r ≠ .done) :
    exec (.stopAudit n id) s = .next (s.answered n id 0x52 r []) := by
  refine next_whenUp ht ?_
  rw [hj, if_neg hr]
  exact reply_up ht.2 _ _ _ _

/-- R138: STOP_AUDIT by the requester ends the sweep. -/
theorem stopAudit_taken (ht : s.Takes n) (id : BitVec 16) {w : SweepRun} (hstate : s.sweep.state ≠ .idle)
    (hrun : s.sweep.run = some w) (hreq : w.requester = n) :
    exec (.stopAudit n id) s = .next (((s.releaseProbe.setSweep (s.sweep.stop .stopped s.now)).raise n none
      (.auditEnded .stopped w.issued w.pass)).answered n id 0x52 .done (countItem w.issued)) := by
  have hended := endSweep_ended hrun .stopped
  have hissued : s.sweep.issued = w.issued := by simp [Sweep.issued, hrun]
  refine next_whenUp ht ?_
  rw [if_pos (judgeSweep_own (runsFor_requester hstate hrun hreq)), hissued,
    reply_up ((congrArg Port.state (hended.port n)).trans ht.2), endSweep_run hrun, hreq]

end

/-! ### The engines when a probe is released (R139) -/

theorem releaseProbe_requested {s : State} {i : Slot} (hc : s.sweep.current = some i)
    (hp : s.sweep.probe = some .requested) :
    s.releaseProbe = s.setEngine i { s.engine i with probeRequest := false } := by
  unfold State.releaseProbe
  rw [hc, hp]

theorem releaseProbe_other {s : State} {i : Slot} (h : s.sweep.current ≠ some i) :
    s.releaseProbe.engine i = s.engine i := by
  unfold State.releaseProbe
  split
  · rename_i j hc _
    exact (State.setEngine_engine s j _ i).trans (if_neg (by rintro rfl; exact h hc))
  · rename_i j k d hc _
    exact (State.setEngine_engine s j _ i).trans (if_neg (by rintro rfl; exact h hc))
  · rfl

theorem Engine.unexpect_tags (e : Engine) (k : DriveTag) :
    (e.unexpect k).tags.map TagEntry.tag = e.tags.map TagEntry.tag := by
  unfold Engine.unexpect
  rw [List.map_map]
  refine List.map_congr_left fun t _ => ?_
  simp only [Function.comp_apply]
  split <;> rfl

/-- The probe that is released keeps its tag, and no command waits or leaves. -/
theorem releaseProbe_keepsTags (s : State) (i : Slot) :
    (s.releaseProbe.engine i).waiting = (s.engine i).waiting ∧
      (s.releaseProbe.engine i).tags.map TagEntry.tag = (s.engine i).tags.map TagEntry.tag := by
  by_cases hc : s.sweep.current = some i
  · cases hp : s.sweep.probe with
    | none => rw [releaseProbe_off hp]; exact ⟨rfl, rfl⟩
    | some p =>
      cases p with
      | requested => rw [releaseProbe_requested hc hp, State.setEngine_engine_same]; exact ⟨rfl, rfl⟩
      | dispatched k d =>
        rw [releaseProbe_dispatched hc hp, State.setEngine_engine_same]
        exact ⟨rfl, Engine.unexpect_tags _ k⟩
  · rw [releaseProbe_other hc]
    exact ⟨rfl, rfl⟩

theorem lowestFree_congr {ts us : List TagEntry} (h : ts.map TagEntry.tag = us.map TagEntry.tag) :
    lowestFree ts = lowestFree us := by
  rw [lowestFree_eq, lowestFree_eq, freeTags, freeTags, h]

/-! ### A sweep that ends with its requester (R139) -/

/-- The two states agree on the sweep, its requester's notices and all that the end of the sweep may change. -/
structure SweepStands (n : Node) (s v : State) : Prop where
  sweep : v.sweep = s.sweep
  notice : v.notice n = s.notice n
  slots : v.slots = s.slots
  bays : v.bays = s.bays
  engines : v.engines = s.engines
  now : v.now = s.now

theorem SweepStands.refl (n : Node) (s : State) : SweepStands n s s := ⟨rfl, rfl, rfl, rfl, rfl, rfl⟩

theorem SweepStands.leaseLost {s v : State} {n : Node} (h : SweepStands n s v) (l : Lease) (b : NoticeBody) :
    SweepStands n s (v.leaseLost n l b) :=
  ⟨h.sweep, (leaseLost_notice l b).trans h.notice, h.slots, h.bays, h.engines, h.now⟩

theorem SweepStands.hasLeft {s v : State} {n : Node} (h : SweepStands n s v) : SweepStands n s (v.hasLeft n) :=
  h.leaseLost _ _

theorem SweepStands.releaseProbe {s v : State} {n : Node} (h : SweepStands n s v) :
    v.releaseProbe.engines = s.releaseProbe.engines := by
  unfold State.releaseProbe State.engine State.setEngine
  rw [h.sweep, h.engines]
  split <;> simp only [h.engines]

/-- The running sweep `w` of the node has ended, and AUDIT_ENDED has joined the node's queue. -/
structure RequesterEnded (s : State) (n : Node) (w : SweepRun) (reason : EndReason) (t : State) : Prop where
  queue : (t.notice n).queue = (s.notice n).queue ++
    [{ slot := none, tick := s.now, body := .auditEnded reason w.issued w.pass }]
  slots : t.slots = s.slots
  bays : t.bays = s.bays
  sweep : t.sweep = s.sweep.stop reason s.now
  engines : t.engines = s.releaseProbe.engines

/-- The sweep `w` of the node runs, and its AUDIT_ENDED will find a place in the node's queue. -/
structure RequesterHears (s : State) (n : Node) (w : SweepRun) : Prop where
  state : s.sweep.state ≠ .idle
  run : s.sweep.run = some w
  requester : w.requester = n
  on : (s.notice n).on = true
  mask : (s.notice n).mask = 0
  room : (s.notice n).queue.length < 32

section
variable {s v : State} {n : Node} {w : SweepRun}

/-- R139: an event that has left the sweep standing ends it. -/
theorem RequesterHears.ends (h : RequesterHears s n w) (hv : SweepStands n s v) (reason : EndReason) :
    RequesterEnded s n w reason (endSweepOf n reason v) ∧ SweepEnded v w reason (endSweepOf n reason v) := by
  have hended := endSweep_ended (hv.sweep ▸ h.run) reason
  rw [endSweepOf_on _ (hv.sweep ▸ runsFor_requester h.state h.run h.requester)]
  refine ⟨⟨?_, hended.slots.trans hv.slots, hended.bays.trans hv.bays, ?_, hended.engines.trans hv.releaseProbe⟩,
    hended⟩
  · have hnotice := hended.notice
    rw [h.requester, hv.notice, hv.now] at hnotice
    rw [hnotice, push_queue _ h.on h.mask h.room]
  · rw [hended.sweep, hv.sweep, hv.now]

/-- R33: an expiry of a node that gathers no batch, with no live partner, ends its sweep and nothing else. -/
theorem expire_endsSweep (hb : (s.batch n).state ≠ .gathering) (hl : s.live n.partner = false) :
    expire n s = endSweepOf n .leaseLost (s.leaseLost n ((s.lease n).stop .expired)
      (.partnerExpired .expired ((s.lease n).grant.map Grant.lastHeartbeat))) := by
  unfold expire
  dsimp only
  rw [claimantLost_off (by exact hb), trigger_off (by rw [live_after]; exact hl)]
  rfl

/-- R36: the same for a LEAVE of a live lease. -/
theorem RequesterHears.leave_endsSweep (h : RequesterHears s n w) (hb : (s.batch n).state ≠ .gathering)
    (hl : s.live n.partner = false) : leaveLive n s = endSweepOf n .leaseLost (s.hasLeft n) := by
  obtain ⟨-, hended⟩ := h.ends (v := s.hasLeft n) (SweepStands.refl n s).hasLeft .leaseLost
  have hleave : leaveLive n s =
      if (endSweepOf n .leaseLost (claimantLost n (s.hasLeft n))).time.grace = true then
        endSweepOf n .leaseLost (claimantLost n (s.hasLeft n))
      else trigger n (endSweepOf n .leaseLost (claimantLost n (s.hasLeft n))) := rfl
  rw [hleave, claimantLost_off (s := s.hasLeft n) hb, trigger_off, ite_self]
  exact (congrArg (fun u : State => u.live n.partner) hended.frame :).trans ((live_after s n _ none _).trans hl)

/-- R131 item 5: the requester's own START_AUDIT ends its running sweep before the new one begins. -/
theorem RequesterHears.startSweep_restarts (h : RequesterHears s n w) (i last : Slot) (m : AuditMode) (budget : Byte) :
    startSweep n i last m budget s = handleSlot i ((endSweepOf n .restarted s).setSweep { s.sweep with
      state := .probing, current := none, holder := none, probe := none, ended := none
      run := some { requester := n, first := i, last := last, mode := m, budget := budget, issued := 0, pass := 0
                    startTick := s.now } }) := by
  obtain ⟨hrequester, hended⟩ := h.ends (.refl n s) .restarted
  have hnow : (endSweepOf n .restarted s).now = s.now := (congrArg State.now hended.frame :)
  unfold startSweep
  dsimp only
  rw [hrequester.sweep, hnow]
  rfl

/-- R131 items 5 and 6: the restarted sweep probes its first slot, behind the AUDIT_ENDED of the one before. -/
theorem RequesterHears.restarts (h : RequesterHears s n w) (ht : s.Takes n) (id : BitVec 16) {i : Slot} (last : Slot)
    {m : AuditMode} (budget : Byte) {k : DriveTag} (hl : s.live n = true) (hmode : w.mode = .once)
    (hbay : (s.bay i).state = .ready ∨ (s.bay i).state = .suspect)
    (hphase : (s.slot i).phase = .unowned ∨ (s.slot i).phase = .owned ∨ (s.slot i).phase = .claimed)
    (hw : (s.engine i).waiting = []) (hk : lowestFree (s.engine i).tags = some k) :
    ∃ t, exec (.startAudit n id i last (BitVec.ofNat 8 (auditModeCode m)) budget) s = .next t ∧
      (t.notice n).queue = (s.notice n).queue ++
        [{ slot := none, tick := s.now, body := .auditEnded .restarted w.issued w.pass }] ∧
      t.slots = s.slots ∧ t.bays = s.bays ∧
      t.sweep = { s.sweep with
        state := .probing, holder := none, ended := none, current := some i
        probe := some (.dispatched k (s.now + 10000))
        run := some { requester := n, first := i, last := last, mode := m, budget := budget, issued := 0, pass := 0
                      startTick := s.now } } := by
  obtain ⟨hended, hframe⟩ := h.ends (.refl n s) .restarted
  have hstart := h.startSweep_restarts i last m budget
  have hengine : (endSweepOf n .restarted s).engine i = s.releaseProbe.engine i :=
    congrArg (fun es : Vector Engine 8 => es[i]) hended.engines
  have hport := congrArg Port.state (hframe.port n)
  have hnow : (endSweepOf n .restarted s).now = s.now := (congrArg State.now hframe.frame :)
  generalize endSweepOf n .restarted s = v at *
  obtain ⟨hwaiting, htags⟩ := releaseProbe_keepsTags s i
  have hbay' : v.bay i = s.bay i := congrArg (fun bs : Vector Bay 8 => bs[i]) hended.bays
  have hslot' : v.slot i = s.slot i := congrArg (fun rs : Vector SlotRec 8 => rs[i]) hended.slots
  rw [← hbay'] at hbay
  rw [← hslot'] at hphase
  rw [← hwaiting, ← hengine] at hw
  rw [← lowestFree_congr htags, ← hengine] at hk
  rw [handleSlot_probes (by exact hbay) (outcomeAtOnce_none (by exact hbay) (by exact hphase)) (by exact hw)
    (by exact hk)] at hstart
  refine ⟨_, startAudit_taken ht id i last m budget ?_ hstart (hport.trans ht.2), hended.queue, hended.slots,
    hended.bays, ?_⟩
  · rw [judgeStart_running hl h.on h.state h.run, if_pos ⟨h.requester, hmode⟩]
  · rw [← hnow]
    rfl

end

/-- Settles O57: the sweep ends by `stopAudit_taken`, or with its requester by `RequesterHears.ends`; the requests are
refused by `judgeStart` and `judgeSweep`. -/
theorem sweepEndsAndAuditRefusals : Obligations.SweepEndsAndAuditRefusals := by
  refine ⟨fun s n id w ht hstate hrun hreq ended hended => ?_, fun s n id ht => ⟨fun first last mode budget answer
    hanswer => ?_, fun hidle => ?_, fun hstate hruns => ?_, fun hstate hruns => ?_⟩,
    fun s n id w ht hstate hrun hreq hon hmask hroom ends hends idle hidle => ?_⟩
  · subst hended
    have hstop := stopAudit_taken ht id hstate hrun hreq
    refine ⟨fun hp => ?_, fun i k d hc hp => ?_⟩
    · rw [hstop, releaseProbe_off hp]
      rfl
    · rw [hstop, releaseProbe_dispatched hc hp]
      rfl
  · refine ⟨fun hbad => (hanswer _).2 (startAudit_badMode ht id first last (auditModeOf_unknown hbad) budget),
      fun h0 h4 => ?_⟩
    obtain ⟨m, hm⟩ := auditModeOf_known h0 h4
    have refused : ∀ {r}, judgeStart n s = r → r ≠ .done → answer r :=
      fun hj hr => (hanswer _).2 (startAudit_refused ht id first last hm budget hj hr)
    refine ⟨fun hl => refused (judgeStart_noLease hl) nofun,
      fun hl hoff => refused (judgeStart_noticesOff hl hoff) nofun,
      fun w hl hon hstate hrun hother => refused ?_ nofun⟩
    rw [judgeStart_running hl hon hstate hrun, if_neg (by rintro ⟨hreq, hmode⟩; simp [hreq, hmode] at hother)]
  · have hj := judgeSweep_idle (n := n) hidle
    exact ⟨stepAudit_refused ht id hj nofun, stopAudit_refused ht id hj nofun⟩
  · have hj := judgeSweep_foreign hstate hruns
    exact ⟨stepAudit_refused ht id hj nofun, stopAudit_refused ht id hj nofun⟩
  · exact stepAudit_notPaused ht id hruns (by rcases hstate with h | h <;> simp [h])
  · have hears : RequesterHears s n w := ⟨hstate, hrun, hreq, hon, hmask, hroom⟩
    have stopped : ∀ {reason v}, SweepStands n s v → idle reason (endSweepOf n reason v) := by
      intro reason v hv
      obtain ⟨h, -⟩ := hears.ends hv reason
      have hengine : ∀ i, (endSweepOf n reason v).engine i = s.releaseProbe.engine i :=
        fun i => congrArg (fun es : Vector Engine 8 => es[i]) h.engines
      refine (hidle _ _).2 ⟨(hends _ _).2 ⟨h.queue, h.slots, h.bays⟩, h.sweep,
        fun i hc k d hp => (hengine i).trans ?_, fun i hc hp => (hengine i).trans ?_,
        fun i hc => (hengine i).trans (releaseProbe_other hc)⟩
      · rw [releaseProbe_dispatched hc hp]
        exact State.setEngine_engine_same _ _ _
      · rw [releaseProbe_requested hc hp]
        exact State.setEngine_engine_same _ _ _
    refine ⟨fun hl hb hp => ⟨fun hdue => ?_, ?_⟩, fun hslow => ?_,
      fun i last mode budget k hl hmode hbay hphase hw hk => ?_⟩
    · exact ⟨_, next_due ht.1 (by simp [hl, hdue]) (expire_endsSweep hb hp),
        stopped ((SweepStands.refl n s).leaseLost _ _)⟩
    · have hears' : RequesterHears (s.answered n id 0x11 .done (u8 (leaseCode (s.lease n).state))) n w :=
        ⟨hstate, hrun, hreq, hon, hmask, hroom⟩
      have hleave := (leave_live (by exact hl)).trans (hears'.leave_endsSweep (by exact hb) (by exact hp))
      exact ⟨_, exec_leave ht hleave, stopped (SweepStands.hasLeft ⟨rfl, rfl, rfl, rfl, rfl, rfl⟩)⟩
    · have hlost : linkLost n s = endSweepOf n .portDown (s.setPort n (s.port n).lose) :=
        congrArg (endSweepOf n .portDown) (fastExpire_off (by exact hslow))
      exact ⟨_, congrArg Host.Outcome.next ((whenTrue_on (by simp [State.receives, ht.1, ht.2])).trans hlost),
        stopped ⟨rfl, rfl, rfl, rfl, rfl, rfl⟩⟩
    · obtain ⟨t, ht', hqueue, hslots, hbays, hsweep⟩ := hears.restarts ht id last budget hl hmode hbay hphase hw hk
      exact ⟨t, ht', (hends _ _).2 ⟨hqueue, hslots, hbays⟩, hsweep⟩

end Sys2Proof.Machine
end

section
/-! Slots that a sweep settles without a probe, and the walk behind their results (R130 to R133, R137). -/

namespace Sys2Proof.Machine

/-! ### A result that is produced (R137) -/

/-- R133 items 1 and 2: the bays and slots that need no probe. -/
theorem outcomeAtOnce_some {s : State} {i : Slot} {o : AuditOutcome}
    (h : ((s.bay i).state = .empty ∧ o = .absent) ∨
      (((s.bay i).state = .bringup ∨ (s.bay i).state = .resetting ∨ (s.bay i).state = .held ∨
        (s.bay i).state = .failed ∨ ((s.bay i).state = .ready ∨ (s.bay i).state = .suspect) ∧
          ((s.slot i).phase = .draining ∨ (s.slot i).phase = .handing ∨
            (s.slot i).phase = .committing)) ∧ o = .notProbed)) : s.outcomeAtOnce i = some o := by
  unfold State.outcomeAtOnce
  rcases h with ⟨hb, rfl⟩ | ⟨hb | hb | hb | hb | ⟨hb, hp⟩, rfl⟩
  · rw [hb]
  · rw [hb]
  · rw [hb]
  · rw [hb]
  · rw [hb]
  · rcases hb with hb | hb <;> rcases hp with hp | hp | hp <;> rw [hb, hp]

/-- The sweep record and the notices of one node after `ns` have joined its queue (R143). -/
def State.sweepTells (s : State) (sweep : Sweep) (n : Node) (ns : List Notice) : State :=
  (s.setSweep sweep).setNotice n { s.notice n with
    queue := (s.notice n).queue ++ ns, attention := true
    summary := ns.foldl (fun m x => m ||| kindBit x.body) (s.notice n).summary }

theorem sweepTells_notice (s : State) (sweep : Sweep) (n : Node) (ns : List Notice) :
    (s.sweepTells sweep n ns).notice n = { s.notice n with
      queue := (s.notice n).queue ++ ns, attention := true
      summary := ns.foldl (fun m x => m ||| kindBit x.body) (s.notice n).summary } :=
  State.setNotice_notice_same _ _ _

@[simp] theorem sweepTells_slots (s : State) (sweep : Sweep) (n : Node) (ns : List Notice) :
    (s.sweepTells sweep n ns).slots = s.slots := rfl

@[simp] theorem sweepTells_bays (s : State) (sweep : Sweep) (n : Node) (ns : List Notice) :
    (s.sweepTells sweep n ns).bays = s.bays := rfl

@[simp] theorem answered_slots (s : State) (n : Node) (id : BitVec 16) (c : Byte) (r : Result) (d : List Byte) :
    (s.answered n id c r d).slots = s.slots := rfl

@[simp] theorem answered_bays (s : State) (n : Node) (id : BitVec 16) (c : Byte) (r : Result) (d : List Byte) :
    (s.answered n id c r d).bays = s.bays := rfl

theorem sweepTells_sweepTells (s : State) (a b : Sweep) (n : Node) (ns ms : List Notice) :
    (s.sweepTells a n ns).sweepTells b n ms = s.sweepTells b n (ns ++ ms) := by
  have hnotice := sweepTells_notice s a n ns
  rw [State.sweepTells, hnotice, List.append_assoc, ← List.foldl_append]
  exact congrArg (fun u : State => u.setSweep b) (State.setNotice_setNotice (s.setSweep a) n _ _)

/-- R137: the sweep record when the result `r` stands in the table and is placed. -/
def Sweep.placed (x : Sweep) (w : SweepRun) (r : AuditResult) : Sweep :=
  { x with table := putAt x.table r.slot (some r), holder := none, state := .probing, run := some w.placed }

/-- R137: the result stands in the table and in the holder, and only the summary is marked. -/
def State.withHeld (s : State) (w : SweepRun) (r : AuditResult) : State :=
  (s.setSweep { s.sweep with
    table := putAt s.sweep.table r.slot (some r), holder := some r, state := .pausedFull }).setNotice
      w.requester { s.notice w.requester with
        summary := (s.notice w.requester).summary ||| kindBit r.notice.body }

section
variable {s : State} {i : Slot} {o : AuditOutcome} {w : SweepRun} {r : AuditResult}

/-- R137: a result goes to the queue where that has a place, and into the holder where it has none. -/
theorem produce_eq (s : State) (w : SweepRun) (r : AuditResult) :
    s.produce w r = if (s.notice w.requester).hasPlace then
      (s.sweepTells (s.sweep.placed w r) w.requester [r.notice], true) else (s.withHeld w r, false) := by
  have hmarked : ((s.tableResult r).markResult w.requester r).notice w.requester =
      { s.notice w.requester with summary := (s.notice w.requester).summary ||| kindBit r.notice.body } :=
    State.setNotice_notice_same _ _ _
  unfold State.produce State.placeResult State.holdResult
  dsimp only
  rw [hmarked]
  by_cases hplace : (s.notice w.requester).hasPlace = true
  · rw [if_pos (by exact hplace), if_pos hplace]
    refine Prod.ext ?_ rfl
    exact congrArg (fun u : State => u.setSweep _) (State.setNotice_setNotice _ _ _ _)
  · rw [if_neg (by exact hplace), if_neg hplace]
    rfl

theorem produce_places (hon : (s.notice w.requester).on = true) (hlen : (s.notice w.requester).queue.length < 32)
    (r : AuditResult) :
    s.produce w r = (s.sweepTells (s.sweep.placed w r) w.requester [r.notice], true) :=
  (produce_eq s w r).trans (if_pos (by simp [NoticeQueue.hasPlace, hon, hlen]))

theorem produce_holds (hlen : 32 ≤ (s.notice w.requester).queue.length) (r : AuditResult) :
    s.produce w r = (s.withHeld w r, false) :=
  (produce_eq s w r).trans (if_neg (by simp [NoticeQueue.hasPlace, hlen]))

theorem handleSlot_settles (ho : s.outcomeAtOnce i = some o) : handleSlot i s =
    settle i (s.auditResult i o none none) (s.setSweep { s.sweep with state := .probing, current := some i }) := by
  have hone : (s.setSweep { s.sweep with state := .probing, current := some i }).outcomeAtOnce i = some o := ho
  unfold handleSlot
  dsimp only
  rw [hone]
  rfl

/-- R132, R137: a result that is placed at once lets the walk go on. -/
theorem handleSlot_walks (ho : s.outcomeAtOnce i = some o) (hw : s.sweep.run = some w)
    (hon : (s.notice w.requester).on = true) (hlen : (s.notice w.requester).queue.length < 32)
    (hr : s.auditResult i o none none = r) : handleSlot i s = walkOn 33 i
      (s.sweepTells { s.sweep.placed w r with current := some i } w.requester [r.notice]) := by
  have hrun : (s.setSweep { s.sweep with state := .probing, current := some i }).sweep.run = some w := hw
  rw [handleSlot_settles ho, settle, hrun]
  dsimp only
  rw [produce_places (by exact hon) (by exact hlen), hr]
  rfl

/-- R137: with the queue full the result stays in the holder. -/
theorem handleSlot_holds (ho : s.outcomeAtOnce i = some o) (hw : s.sweep.run = some w)
    (hlen : 32 ≤ (s.notice w.requester).queue.length) (hr : s.auditResult i o none none = r) :
    handleSlot i s = (s.setSweep { s.sweep with current := some i }).withHeld w r := by
  have hrun : (s.setSweep { s.sweep with state := .probing, current := some i }).sweep.run = some w := hw
  rw [handleSlot_settles ho, settle, hrun]
  dsimp only
  rw [produce_holds (by exact hlen), hr]
  rfl

theorem Sweep.stop_noProbe {x : Sweep} (h : x.probe = none) (reason : EndReason) (now : Tick) :
    x.stop reason now =
      { x with state := .idle, current := none, holder := none, ended := some (reason, now) } := by
  simp [Sweep.stop, h]

/-! ### What follows a result that is placed (R132, R139) -/

theorem push_placed {q : NoticeQueue} (hon : q.on = true) (hmask : q.mask = 0) (hlen : q.queue.length < 32)
    (x : Notice) : q.push x = { q with
      queue := q.queue ++ [x], attention := true, summary := q.summary ||| kindBit x.body } := by
  unfold NoticeQueue.push
  dsimp only
  rw [if_neg (by simp [hon, hmask]), if_pos hlen]

/-- R139: a sweep with no probe outstanding ends, its AUDIT_ENDED finding a place. -/
theorem endSweep_tells (hw : s.sweep.run = some w) (hp : s.sweep.probe = none)
    (hon : (s.notice w.requester).on = true) (hmask : (s.notice w.requester).mask = 0)
    (hlen : (s.notice w.requester).queue.length < 32) (reason : EndReason) :
    endSweep reason s = s.sweepTells (s.sweep.stop reason s.now) w.requester
      [{ slot := none, tick := s.now, body := .auditEnded reason w.issued w.pass }] := by
  rw [endSweep_run hw, releaseProbe_off hp, State.raise, State.setSweep_notice, push_placed hon hmask hlen]
  rfl

/-- The walk behind a result that is placed: the sweep ends behind it where the record says so. -/
theorem handleSlot_ends (ho : s.outcomeAtOnce i = some o) (hw : s.sweep.run = some w)
    (hp : s.sweep.probe = none) (hon : (s.notice w.requester).on = true)
    (hmask : (s.notice w.requester).mask = 0) (hlen : (s.notice w.requester).queue.length < 31)
    (hr : s.auditResult i o none none = r) {reason : EndReason} (ha : advanceOf w.placed i = .ends reason) :
    handleSlot i s = s.sweepTells ((s.sweep.placed w r).stop reason s.now) w.requester
      [r.notice, { slot := none, tick := s.now, body := .auditEnded reason w.placed.issued w.pass }] := by
  rw [handleSlot_walks ho hw hon (by omega) hr]
  generalize hv : s.sweepTells { s.sweep.placed w r with current := some i } w.requester [r.notice] = v
  have hnotice : v.notice w.placed.requester = _ :=
    (congrArg (fun u : State => u.notice w.requester) hv.symm :).trans (sweepTells_notice _ _ _ _)
  have hrun : v.sweep.run = some w.placed := by rw [← hv]; rfl
  rw [walkOn_ends hrun ha, endSweep_tells hrun (by rw [← hv]; exact hp) (by rw [hnotice]; exact hon)
    (by rw [hnotice]; exact hmask) (by rw [hnotice]; simp; omega), ← hv]
  exact sweepTells_sweepTells _ _ _ _ _ _

/-- The walk behind a result that is placed: the next slot needs a probe, which goes out at once. -/
theorem handleSlot_probesNext (ho : s.outcomeAtOnce i = some o) (hw : s.sweep.run = some w)
    (hon : (s.notice w.requester).on = true) (hlen : (s.notice w.requester).queue.length < 32)
    (hr : s.auditResult i o none none = r) {next : Slot} {pass : Count16} {k : DriveTag}
    (ha : advanceOf w.placed i = .handles next pass)
    (hb : (s.bay next).state = .ready ∨ (s.bay next).state = .suspect)
    (hp : (s.slot next).phase = .unowned ∨ (s.slot next).phase = .owned ∨ (s.slot next).phase = .claimed)
    (hwaiting : (s.engine next).waiting = []) (hk : lowestFree (s.engine next).tags = some k) :
    handleSlot i s = ((s.sweepTells { s.sweep.placed w r with
        current := some next, run := some { w.placed with pass := pass }
        probe := some (.dispatched k (s.now + 10000)) } w.requester [r.notice]).setEngine next { s.engine next with
          probeRequest := false, tags := (s.engine next).tags ++ [⟨k, .probe true⟩] }).toDrive next
            [.identifyTagged k] := by
  have hnone := outcomeAtOnce_none hb hp
  rw [handleSlot_walks ho hw hon hlen hr]
  refine (walkOn_handles (w := w.placed) (by rfl) ha (by exact hnone) 32).trans ?_
  rw [handleSlot_probes (by exact hb) (by exact hnone) (by exact hwaiting) (by exact hk)]
  rfl

end

/-! ### The requests at such a slot (R131, R138) -/

theorem stepAudit_taken {s t : State} {n : Node} {i : Slot} (ht : s.Takes n) (id : BitVec 16)
    (hruns : s.sweep.runsFor n = true) (hstate : s.sweep.state = .pausedStep) (hcur : s.sweep.current = some i)
    (h : handleSlot i s = t) (hup : (t.port n).state = .up) :
    exec (.stepAudit n id) s = .next (t.answered n id 0x51 .done (u8 i.val)) := by
  refine next_whenUp ht ?_
  rw [if_neg (not_not_intro (judgeSweep_own hruns)), hstate, hcur]
  dsimp only
  rw [h]
  exact reply_up hup _ _ _ _

/-- R132: the budget comes first, then the last slot. -/
theorem advanceOf_budget {w : SweepRun} (h0 : w.budget ≠ 0) (hle : w.budget.toNat ≤ w.issued.toNat) (i : Slot) :
    advanceOf w i = .ends .budget := if_pos ⟨h0, hle⟩

theorem advanceOf_done {w : SweepRun} {i : Slot} (hbudget : w.budget = 0 ∨ w.issued.toNat < w.budget.toNat)
    (hlast : i = w.last) (hmode : w.mode ≠ .cyclic) : advanceOf w i = .ends .done := by
  unfold advanceOf
  rw [if_neg (by rintro ⟨h0, hle⟩; exact hbudget.elim h0 (Nat.not_lt.2 hle)), if_pos ⟨hlast, hmode⟩]

theorem advanceOf_next {w : SweepRun} {i : Slot} (hbudget : w.budget = 0) (hlast : i ≠ w.last)
    (hmode : w.mode ≠ .stepped) : advanceOf w i = .handles (i + 1) w.pass := by
  simp [advanceOf, hbudget, hlast, hmode]

/-- Settles O56: the result is placed and the walk ends (`handleSlot_ends`), pauses (`walkOn_pauses`) or goes on
(`walkOn_handles`), or the result is held (`handleSlot_holds`). -/
theorem sweepSettlesSlotsWithoutProbe : Obligations.SweepSettlesSlotsWithoutProbe := by
  intro s n id i o ht hon hmask hbay r placed hr hplaced ends hends
  have ho := outcomeAtOnce_some hbay
  have hresult : s.auditResult i o none none = r := hr.symm
  have hslot : r.slot = i := congrArg AuditResult.slot hr
  have hnotice : r.notice = placed := by rw [hplaced, hr]; rfl
  refine ⟨?_, ?_⟩
  · rintro w hstate hrun rfl hcur hmode hp w' stopped rfl hstopped answers hanswers
    have taken : ∀ {t}, handleSlot i s = t → (t.port w.requester).state = .up →
        exec (.stepAudit w.requester id) s = .next (t.answered w.requester id 0x51 .done (u8 i.val)) :=
      fun h hup => stepAudit_taken ht id (runsFor_requester (by simp [hstate]) hrun rfl) hstate hcur h hup
    have told : ∀ {sweep ns}, handleSlot i s = s.sweepTells sweep w.requester ns → answers sweep ns :=
      fun h => (hanswers _ _).2 (taken h ht.2)
    have ended : ∀ {reason}, (s.notice w.requester).queue.length < 31 → advanceOf w.placed i = .ends reason →
        answers (stopped reason) [placed, ends (satInc w.issued) w.pass reason] := by
      intro reason hlen ha
      have hstop : (s.sweep.placed w r).stop reason s.now = stopped reason := by
        rw [hstopped, Sweep.stop_noProbe (by exact hp), ← hslot]
        rfl
      rw [hends, ← hstop, ← hnotice]
      exact told (handleSlot_ends ho hrun hp hon hmask hlen hresult ha)
    refine ⟨fun hlen h0 hle => ended hlen (advanceOf_budget (w := w.placed) h0 hle i), fun hbudget =>
      ⟨fun hlen hlast => ended hlen (advanceOf_done hbudget hlast (by simp [SweepRun.placed, hmode])),
        fun hlen hlast => ?_⟩, fun hlen => ?_⟩
    · refine told ((handleSlot_walks ho hrun hon hlen hresult).trans ?_)
      rw [walkOn_pauses (w := w.placed) rfl (advanceOf_stepped hbudget hmode hlast), hnotice, ← hslot]
      rfl
    · refine (taken (handleSlot_holds ho hrun hlen hresult) ht.2).trans ?_
      rw [State.withHeld, ← hcur, hslot]
      rfl
  · intro last mode k hl hidle hlen hmode hlast hready hphase hw hk
    have hstart := (startSweep_idle hidle i last mode 0).trans (handleSlot_probesNext (i := i) (by exact ho) (by rfl)
      (by exact hon) (by exact hlen) (by exact hresult) (by exact advanceOf_next rfl hlast hmode) (by exact hready)
      (by exact hphase) (by exact hw) (by exact hk))
    have hjudge : judgeStart n s = .done := by simp [judgeStart, hl, hon, hidle]
    refine ⟨_, startAudit_taken ht id i last mode 0 hjudge hstart ht.2, ?_, ?_, ?_, ?_, by simp, by simp⟩
    · rw [← hnotice]
      exact congrArg NoticeQueue.queue (sweepTells_notice _ _ n _)
    · rw [← hslot]
      rfl
    · exact State.setEngine_engine_same _ _ _
    · rw [answered_unsent, if_pos rfl]
      rfl

end Sys2Proof.Machine
end

section
/-! The notice queues and the attention outputs along every step (R142 to R145, R163), what raising a notice
does (R143), and READ_SUMMARY (R149). -/

namespace Sys2Proof.Machine

/-! ### Power and the reset input (R145, R160, R163) -/

theorem NoticesOk.of_eq {s t : State} (hn : t.notices = s.notices) (hr : t.running = true → s.running = true)
    (h : NoticesOk s) : NoticesOk t := by
  intro n
  obtain ⟨hlen, hoff, hatt⟩ := h n
  unfold State.notice
  rw [hn]
  exact ⟨hlen, hoff, fun ht => hatt (hr ht)⟩

/-- R145: once the controller has stopped its attention outputs owe the queues nothing. -/
theorem NoticesOk.silenced {s t : State} (hn : t.notices = s.silence.notices) (hr : t.running = false)
    (h : NoticesOk s) : NoticesOk t := by
  intro n
  obtain ⟨hlen, hoff, -⟩ := h n
  unfold State.notice
  rw [hn, hr]
  cases n <;> exact ⟨hlen, hoff, nofun⟩

/-- R160: what becomes of a write in progress leaves the notice queues and the power alone. -/
theorem resolveWrite_notices_power (s : State) :
    s.resolveWrite.notices = s.notices ∧ s.resolveWrite.power = s.power := by
  unfold State.resolveWrite
  split <;> exact ⟨rfl, rfl⟩

theorem resolveWrite_noticesOk {s : State} (h : NoticesOk s) : NoticesOk s.resolveWrite := by
  obtain ⟨hn, hp⟩ := resolveWrite_notices_power s
  exact h.of_eq hn fun hr => by rwa [State.running, hp] at hr

/-- R163: at start-up each queue is empty and off, with attention deasserted. -/
theorem startUp_noticesOk (s : State) : NoticesOk (startUp s) := by
  obtain ⟨-, -, -, -, hnotice, -⟩ := initialRecords_ok
  exact fun n => startUp_notice s n ▸ hnotice _

theorem setResetInput_true_running (s : State) : (s.setResetInput true).running = false := Bool.and_false _

theorem assertReset_noticesOk {s : State} (h : NoticesOk s) : NoticesOk (assertReset s) := by
  have hstopped := setResetInput_true_running s
  have hinput : NoticesOk (s.setResetInput true) := .of_eq (s := s) rfl (fun hr => by simp [hstopped] at hr) h
  obtain ⟨-, hp⟩ := resolveWrite_notices_power (s.setResetInput true)
  unfold assertReset
  dsimp only
  split
  · refine (resolveWrite_noticesOk hinput).silenced rfl ?_
    change (s.setResetInput true).resolveWrite.running = false
    rw [State.running, hp]
    exact hstopped
  · exact hinput

/-- R163: only a controller that was held starts up; one that ran goes on, and one that is off stays off. -/
theorem releaseReset_noticesOk {s : State} (h : NoticesOk s) : NoticesOk (releaseReset s) := by
  unfold releaseReset
  dsimp only
  split
  · exact startUp_noticesOk _
  · rename_i hheld
    refine .of_eq (s := s) rfl (fun hr => ?_) h
    have hpowered : s.power.powered = true := (Bool.and_eq_true_iff.1 hr).1
    simpa [State.running, hpowered] using hheld

theorem turnOn_noticesOk (s : State) : NoticesOk (turnOn s) := by
  have hup := startUp_noticesOk { s with power := { s.power with powered := true } }
  unfold turnOn
  dsimp only
  split
  · exact hup.of_eq rfl id
  · exact hup

theorem turnOff_noticesOk {s : State} (h : NoticesOk s) : NoticesOk (turnOff s) := by
  unfold turnOff
  split
  · exact (resolveWrite_noticesOk h).silenced rfl rfl
  · exact h

/-! ### Every step -/

theorem exec_noticesOk {c : Instr} {s t : State} (hx : exec c s = .next t) (h : NoticesOk s) : NoticesOk t := by
  cases hc : c.ofPower with
  | false => exact (exec_keeps hc hx).notices h
  | true =>
    cases c with
    | resetAssert => cases hx; exact assertReset_noticesOk h
    | resetRelease => cases hx; exact releaseReset_noticesOk h
    | powerOn => cases hx; exact turnOn_noticesOk s
    | powerFail => cases hx; exact turnOff_noticesOk h
    | _ => cases hc

theorem idle_noticesOk {s : State} (h : NoticesOk s) : NoticesOk (idle s) := by
  unfold idle whenRunning
  split <;> exact h.of_eq rfl id

/-- Settles O8: each command keeps the queues by the operations it is made of (`exec_keeps`), start-up makes
them anew, a controller that stops keeps what is queued with attention deasserted, and the idle step does not
touch them. -/
theorem stepKeepsNoticeQueues : Obligations.StepKeepsNoticeQueues := by
  intro s t hstep h
  unfold step at hstep
  split at hstep
  · cases hstep
    exact idle_noticesOk h
  · exact exec_noticesOk hstep (h.of_eq rfl id)

/-! ### Raising a notice (R143) -/

/-- R143: whatever follows, the summary is marked first. -/
theorem push_summary (q : NoticeQueue) (x : Notice) : (q.push x).summary = q.summary ||| kindBit x.body := by
  unfold NoticeQueue.push
  dsimp only
  split
  · rfl
  · split <;> rfl

/-- R143: off or masked, a notice marks the summary and goes no further. -/
theorem push_unheard {q : NoticeQueue} {x : Notice} (h : q.on = false ∨ q.mask.getLsbD x.body.code = true) :
    q.push x = { q with summary := q.summary ||| kindBit x.body } := by
  unfold NoticeQueue.push
  exact if_pos (by simpa using h)

/-- R143: on and unmasked, a notice is appended below 32, or else dropped and counted. -/
theorem push_heard {q : NoticeQueue} {x : Notice} (hon : q.on = true)
    (hmask : q.mask.getLsbD x.body.code = false) :
    q.push x = if q.queue.length < 32
      then { q with summary := q.summary ||| kindBit x.body, queue := q.queue ++ [x], attention := true }
      else { q with summary := q.summary ||| kindBit x.body, dropped := satInc q.dropped } := by
  unfold NoticeQueue.push
  exact if_neg (by simp [hon, hmask])

/-- Settles O19: the cases of `NoticeQueue.push` (`push_unheard`, `push_heard`). -/
theorem raisedNoticeIsQueuedOrDropped : Obligations.RaisedNoticeIsQueuedOrDropped := by
  rintro s n slot b q rfl
  refine ⟨fun hunheard => ?_, fun hon hmask => ⟨fun hroom => ?_, fun hfull => ?_⟩⟩
  · exact congrArg (s.setNotice n) (push_unheard hunheard)
  · exact congrArg (s.setNotice n) ((push_heard hon hmask).trans (if_pos hroom))
  · exact congrArg (s.setNotice n) ((push_heard hon hmask).trans (if_neg (Nat.not_lt.2 hfull)))

/-! ### READ_SUMMARY (R149) -/

theorem raise_notice (s : State) (n : Node) (slot : Option Slot) (b : NoticeBody) :
    (s.raise n slot b).notice n = (s.notice n).push { slot := slot, tick := s.now, body := b } :=
  State.setNotice_notice_same _ _ _

/-- A raised notice leaves the port and the power as they are. -/
theorem State.Takes.raise {s : State} {n : Node} (h : s.Takes n) (m : Node) (slot : Option Slot)
    (b : NoticeBody) : (s.raise m slot b).Takes n := h

theorem exec_readSummary {s : State} {n : Node} (ht : s.Takes n) (id : BitVec 16) :
    exec (.readSummary n id) s = .next ((s.setNotice n { s.notice n with summary := 0, dropped := 0 }).answered n id
      0x62 .done (u32 (s.notice n).summary.toNat ++ countItem (s.notice n).dropped)) :=
  next_whenUp ht (reply_up (by exact ht.2) _ _ _ _)

@[simp] theorem answered_notice (s : State) (n m : Node) (id : BitVec 16) (c : Byte) (r : Result)
    (d : List Byte) : (s.answered n id c r d).notice m = s.notice m := rfl

/-- Settles O18: READ_SUMMARY is one equation (`exec_readSummary`), before a notice is raised and after, and
a raise marks the summary whatever follows (`push_summary`). -/
theorem readSummaryReportsAndClears : Obligations.ReadSummaryReportsAndClears := by
  intro s n id ht read hread
  have hcleared : ∀ v : State, ((read v).notice n).summary = 0 := fun v => by simp [hread]
  have hexec : ∀ v : State, v.Takes n → exec (.readSummary n id) v = .next (read v) := fun v hv =>
    hread v ▸ exec_readSummary hv id
  refine ⟨hexec s ht, fun slot b => ⟨hexec _ (ht.raise n slot b), ?_, hcleared _, ?_⟩⟩
  · rw [raise_notice, push_summary]
    rfl
  · rw [raise_notice, push_summary, hcleared]
    exact BitVec.zero_or

end Sys2Proof.Machine
end

section
/-! The node link seen from outside: what a controller that is off, held in reset or not UP leaves undone (R150, R153,
R163), the links of a step with no command waiting (R113, R154), and the checks of an arriving frame (R151, R152,
R155). -/

namespace Sys2Proof.Machine

/-! ### The gates, closed (logs 14 and 22) -/

theorem whenRunning_off {s : State} {f : State → State} (h : s.running = false) : whenRunning f s = s := by
  simp [whenRunning, h]

theorem whenUp_off {s : State} {n : Node} {f : State → State} (h : ¬ s.Takes n) : whenUp n f s = s :=
  if_neg (by simpa [State.Takes] using h)

theorem receives_off {s : State} (h : s.running = false) (n : Node) : s.receives n = false := by
  simp [State.receives, h]

/-- R150, R153: a command that a node sends acts behind the gate of that node's port. -/
theorem exec_of_sender {c : Instr} {n : Node} (h : c.sender = some n) :
    ∃ f, ∀ s, exec c s = .next (whenUp n f s) := by
  cases c with
  | crcCheckFailed | haltedFrameDiscard | resume | driveCompletion | driveDataFrame | driveReady | identifyAnswer
  | driveLinkLoss | presenceChange | insertion | removal | linkTrainingComplete | nodeLinkLoss | tick
  | referenceLost | referenceQualified | referenceRegained | lapseDeadline | expiryDeadline | graceEnd
  | gatherDeadline | drainDeadline | handingDrainDeadline | bringupDeadline | resetDeadline | probeDeadline
  | storeWriteDone | storeWriteFailed | resetAssert | resetRelease | powerOn | powerFail => cases h
  | _ =>
    cases h
    exact ⟨_, fun _ => rfl⟩

theorem exec_not_takes {c : Instr} {n : Node} {s : State} (hc : c.sender = some n) (h : ¬ s.Takes n) :
    exec c s = .next s := by
  obtain ⟨f, hf⟩ := exec_of_sender hc
  rw [hf, whenUp_off h]

/-- R163: with no sender, a frame that fails its integrity check and a link loss are behind the gate of a port that
receives, and the other events behind the gate of the controller. -/
theorem exec_not_running {c : Instr} {s : State} (h : s.running = false) (hpower : c.ofPower = false)
    (hpin : ∀ i level, c ≠ .presenceChange i level) : exec c s = .next s := by
  cases hsender : c.sender with
  | some n => exact exec_not_takes hsender fun ht => by simp [ht.1] at h
  | none =>
    cases c with
    | crcCheckFailed n f => exact congrArg Host.Outcome.next (whenTrue_off (by simp [receives_off h]))
    | nodeLinkLoss n => exact congrArg Host.Outcome.next (whenTrue_off (receives_off h n))
    | haltedFrameDiscard n f => rfl
    | presenceChange i level => exact absurd rfl (hpin i level)
    | resetAssert | resetRelease | powerOn | powerFail => cases hpower
    | resume | driveCompletion | driveDataFrame | driveReady | identifyAnswer | driveLinkLoss | insertion | removal
    | linkTrainingComplete | tick | referenceLost | referenceQualified | referenceRegained | lapseDeadline
    | expiryDeadline | graceEnd | gatherDeadline | drainDeadline | handingDrainDeadline | bringupDeadline
    | resetDeadline | probeDeadline | storeWriteDone | storeWriteFailed =>
      exact congrArg Host.Outcome.next (whenRunning_off h)
    | _ => cases hsender

/-- Settles O4: every meaning stands behind a gate, of the controller (`exec_not_running`) or of its sender's port
(`exec_not_takes`), and a frame that a HALTED port discards has none. -/
theorem whatIsClosedTakesNothing : Obligations.WhatIsClosedTakesNothing :=
  ⟨fun _ _ h hpower hpin => exec_not_running h hpower hpin,
    fun _ _ _ => ⟨fun hsender hport => exec_not_takes hsender fun ht => hport ht.2, fun _ => rfl⟩⟩

/-! ### A step with no command waiting (logs 6, 34 and 37) -/

theorem step_idle {s : State} (h : s.pending = []) : step s = .next (idle s) := by
  unfold step
  rw [h]

theorem sendFrames_port (s : State) (n : Node) : (sendFrames s).port n = (s.port n).sendOne := by
  cases n <;> rfl

theorem sendFrames_driveOut (s : State) (i : Slot) : (sendFrames s).driveOut[i] = s.driveOut[i].drop 1 :=
  tabulate_get _ i

/-- Settles O2: the idle step is `sendFrames` behind the gate of the controller. -/
theorem idleStepSendsOneFrameOnEachLink : Obligations.IdleStepSendsOneFrameOnEachLink := by
  refine fun s hpending => ⟨fun hoff => ?_,
    fun hon => ⟨sendFrames s, ?_, sendFrames_port s, sendFrames_driveOut s, rfl⟩⟩
  · exact (step_idle hpending).trans (congrArg Host.Outcome.next (whenRunning_off hoff))
  · exact (step_idle hpending).trans (next_whenRunning hon rfl)

/-! ### Arriving frames (R151, R152, R155) -/

theorem exec_crcCheckFailed {s : State} {n : Node} {f : List Byte} (hrun : s.running = true)
    (hport : (s.port n).state ≠ .down) (hbad : frameIntact f = false) :
    exec (.crcCheckFailed n f) s = .next (countCheckError n s) :=
  congrArg Host.Outcome.next (whenTrue_on (by simp [State.receives, hrun, hport, hbad]))

theorem exec_protocolFault {s : State} {n : Node} {f : List Byte} {k : FaultKind} (ht : s.Takes n)
    (hintact : frameIntact f = true) (hfault : structureFault f = some k) :
    exec (.protocolFault n f) s = .next (haltPort n k f s) :=
  next_whenUp ht (by rw [hfault]; exact if_pos hintact)

theorem isBadRequest_iff {n : Node} {f : List Byte} :
    isBadRequest n f = true ↔
      frameIntact f = true ∧ structureFault f = none ∧ byteAt f 0 = 3 ∧ requestIn n f = none := by
  simp [isBadRequest, and_assoc]

theorem exec_badRequest {s : State} {n : Node} {f : List Byte} (ht : s.Takes n) (hbad : isBadRequest n f = true) :
    exec (.badRequest n f) s = .next (s.answered n (requestId f) (requestCode f) .badRequest []) :=
  next_whenUp ht ((whenTrue_on hbad).trans (reply_up ht.2 _ _ _ _))

/-- Settles O15: each check is one equation of its command. -/
theorem arrivingFramesAreChecked : Obligations.ArrivingFramesAreChecked :=
  fun _ _ _ => ⟨exec_crcCheckFailed, fun _ => exec_protocolFault, fun ht hintact hsound hreq hnone =>
    exec_badRequest ht (isBadRequest_iff.2 ⟨hintact, hsound, hreq, hnone⟩)⟩

end Sys2Proof.Machine
end

section
/-! Every command goes on, with the waiting commands as they were; and how RESET_ASSERT and POWER_FAIL stop a running
controller, with the store record that was being written (R145, R160, R163). -/

namespace Sys2Proof.Machine

/-! ### A write in progress (R160) -/

theorem resolveWrite_pending (s : State) : s.resolveWrite.pending = s.pending := by
  unfold State.resolveWrite
  split <;> rfl

/-- The reset input has no part in what becomes of a write in progress. -/
theorem resolveWrite_setResetInput (s : State) (level : Bool) :
    (s.setResetInput level).resolveWrite = s.resolveWrite.setResetInput level := by
  unfold State.resolveWrite State.setResetInput
  dsimp only
  split <;> rfl

theorem resolveWrite_ready_empty (s : State) :
    s.resolveWrite.store.mode = .ready ∧ s.resolveWrite.store.queue = [] := by
  unfold State.resolveWrite
  split
  · dsimp only
    split <;> exact ⟨rfl, rfl⟩
  · exact ⟨rfl, rfl⟩

/-- R160: the record being written is the update's where the free value says so; every other record stands. -/
theorem resolveWrite_record (s : State) (i : Slot) :
    s.resolveWrite.store.records[i] = s.store.records[i] ∨
      ∃ u k d, s.store.mode = .writing u k d ∧ u.slot = i ∧ s.resolveWrite.store.records[i] = u.record := by
  unfold State.resolveWrite
  split
  case h_1 u k d hmode =>
    dsimp only
    split
    case isTrue hnew =>
      by_cases hi : i = u.slot
      · subst hi
        exact .inr ⟨u, k, d, hmode, rfl, putAt_get_same _ _ _⟩
      · exact .inl ((putAt_get _ _ _ _).trans (if_neg hi))
    case isFalse hold => exact .inl rfl
  case h_2 => exact .inl rfl

/-! ### The waiting commands -/

theorem startUp_pending (s : State) : (startUp s).pending = s.pending := resolveWrite_pending s

theorem assertReset_pending (s : State) : (assertReset s).pending = s.pending := by
  unfold assertReset
  dsimp only
  split
  · exact resolveWrite_pending _
  · rfl

theorem releaseReset_pending (s : State) : (releaseReset s).pending = s.pending := by
  unfold releaseReset
  dsimp only
  split
  · exact startUp_pending _
  · rfl

theorem turnOn_pending (s : State) : (turnOn s).pending = s.pending := by
  unfold turnOn
  dsimp only
  split <;> exact startUp_pending _

theorem turnOff_pending (s : State) : (turnOff s).pending = s.pending := by
  unfold turnOff
  split
  · exact resolveWrite_pending s
  · rfl

theorem exec_pending {c : Instr} {s t : State} (h : exec c s = .next t) : t.pending = s.pending := by
  cases hc : c.ofPower with
  | false => exact (exec_keeps hc h).pending
  | true =>
    cases c with
    | resetAssert => cases h; exact assertReset_pending s
    | resetRelease => cases h; exact releaseReset_pending s
    | powerOn => cases h; exact turnOn_pending s
    | powerFail => cases h; exact turnOff_pending s
    | _ => cases hc

/-- No command stops the block with a fault, and none is without a meaning. -/
theorem exec_answers (c : Instr) (s : State) : ∃ t, exec c s = .next t := by
  cases c <;> exact ⟨_, rfl⟩

/-- Settles O3: every meaning is a function of the state (`exec_answers`), no command touches the waiting ones
(`exec_pending`), and only the events of power and reset are no `Keeps` step. -/
theorem everyCommandGoesOn : Obligations.EveryCommandGoesOn := by
  intro c s
  obtain ⟨t, h⟩ := exec_answers c s
  exact ⟨t, h, exec_pending h, fun hc => (exec_keeps hc h).power⟩

/-! ### A controller that stops (R145, R160, R163; logs 7 and 38) -/

theorem running_power {s : State} (h : s.running = true) : s.power = { powered := true, resetAsserted := false } := by
  cases hp : s.power with
  | mk powered resetAsserted => simpa [State.running, hp] using h

/-- What a running controller is once it has stopped, but for the power and the bays. -/
def State.stopped (s : State) (power : Power) (bays : Vector Bay 8) : State :=
  { s.resolveWrite.silence with power := power, bays := bays }

theorem exec_resetAssert {s : State} (h : s.running = true) : exec .resetAssert s =
    .next (s.stopped { powered := true, resetAsserted := true } s.resolveWrite.holdLinks.bays) := by
  have hassert : assertReset s = (s.setResetInput true).resolveWrite.silence.holdLinks := if_pos h
  have hpower : s.resolveWrite.power = { powered := true, resetAsserted := false } :=
    (resolveWrite_notices_power s).2.trans (running_power h)
  change Host.Outcome.next (assertReset s) = _
  rw [hassert, resolveWrite_setResetInput]
  unfold State.setResetInput
  rw [hpower]
  rfl

theorem exec_powerFail {s : State} (h : s.running = true) : exec .powerFail s =
    .next (s.stopped { powered := false, resetAsserted := false } s.resolveWrite.bays) := by
  have hpower := running_power h
  have hoff : turnOff s = { s.resolveWrite.silence with power := { s.power with powered := false } } :=
    if_pos (by rw [hpower])
  change Host.Outcome.next (turnOff s) = _
  rw [hoff, hpower]
  rfl

theorem stopped_port (s : State) (power : Power) (bays : Vector Bay 8) (n : Node) :
    ((s.stopped power bays).port n).state = .down ∧ ((s.stopped power bays).port n).unsent = [] ∧
      ((s.stopped power bays).port n).awaiting = [] := by
  cases n <;> exact ⟨rfl, rfl, rfl⟩

theorem stopped_attention (s : State) (power : Power) (bays : Vector Bay 8) (n : Node) :
    ((s.stopped power bays).notice n).attention = false := by
  cases n <;> rfl

/-- Settles O59: both events leave `State.stopped`, whose store is what `State.resolveWrite` makes of the write in
progress. -/
theorem resetAndPowerFailStopTheController : Obligations.ResetAndPowerFailStopTheController := by
  intro s hrun stopped hstopped
  have hstops : ∀ power bays, (s.stopped power bays).running = false → stopped (s.stopped power bays) := by
    intro power bays hoff
    obtain ⟨hmode, hqueue⟩ := resolveWrite_ready_empty s
    refine (hstopped _).2 ⟨hoff, fun n => ?_, hmode, hqueue, resolveWrite_pending s, resolveWrite_record s⟩
    obtain ⟨hdown, hunsent, hawaiting⟩ := stopped_port s power bays n
    exact ⟨hdown, hunsent, hawaiting, stopped_attention s power bays n⟩
  exact ⟨⟨_, exec_resetAssert hrun, hstops _ _ rfl, rfl,
      fun i => congrArg Bay.linkHeld (holdLinks_bay s.resolveWrite i)⟩,
    ⟨_, exec_powerFail hrun, hstops _ _ rfl, rfl⟩⟩

end Sys2Proof.Machine
end

section
/-! A frame that is laid out as chapter 12 says, read again: items at their natural width, the header, body and CRC of
a frame (R151, R152, R164), and the CMD in its body (12.2). And the step with a command waiting. -/

namespace Sys2Proof.Machine

/-! ### Items at their natural width (00, Numbers and byte order) -/

@[simp] theorem beBytes_length (k x : Nat) : (beBytes k x).length = k := by
  induction k with
  | zero => rfl
  | succ k ih => exact congrArg (· + 1) ih

@[simp] theorem u16_length (x : Nat) : (u16 x).length = 2 := beBytes_length 2 x
@[simp] theorem u32_length (x : Nat) : (u32 x).length = 4 := beBytes_length 4 x
@[simp] theorem u48_length (x : Nat) : (u48 x).length = 6 := beBytes_length 6 x

/-- The reader's fold over an item, from any value read so far: the first byte is the item's digit of weight `256 ^ k`. -/
theorem foldl_beBytes (k x acc : Nat) :
    (beBytes k x).foldl (fun acc b => acc * 256 + b.toNat) acc = acc * 256 ^ k + x % 256 ^ k := by
  induction k generalizing acc with
  | zero => simp [beBytes, Nat.mod_one]
  | succ k ih =>
    have hdigit : (BitVec.ofNat 8 (x >>> (8 * k))).toNat = x / 256 ^ k % 256 := by
      rw [BitVec.toNat_ofNat, Nat.shiftRight_eq_div_pow, Nat.pow_mul]
    rw [beBytes, List.foldl_cons, ih, hdigit, Nat.pow_succ, Nat.mod_mul]
    ring

theorem ofBytes_beBytes (k x : Nat) : ofBytes (beBytes k x) = x % 256 ^ k := by
  simpa [ofBytes] using foldl_beBytes k x 0

/-- A word of `k` bytes reads back. -/
theorem ofBytes_beBytes_toNat (k : Nat) (x : BitVec (8 * k)) : ofBytes (beBytes k x.toNat) = x.toNat := by
  rw [ofBytes_beBytes, show 256 ^ k = 2 ^ (8 * k) from (Nat.pow_mul 2 8 k).symm]
  exact Nat.mod_eq_of_lt x.isLt

theorem u8_toNat (b : Byte) : u8 b.toNat = [b] := by
  simp [u8, beBytes]

theorem ofBytes_u16_toNat (x : BitVec 16) : ofBytes (u16 x.toNat) = x.toNat := ofBytes_beBytes_toNat 2 x
theorem ofBytes_u32_toNat (x : BitVec 32) : ofBytes (u32 x.toNat) = x.toNat := ofBytes_beBytes_toNat 4 x
theorem ofBytes_u48_toNat (x : BitVec 48) : ofBytes (u48 x.toNat) = x.toNat := ofBytes_beBytes_toNat 6 x

/-- A slot number fits a byte. -/
theorem slot_mod_256 (i : Slot) : i.val % 256 = i.val := Nat.mod_eq_of_lt (i.isLt.trans (by decide))

theorem slotOf_ofNat_val (i : Slot) : slotOf (BitVec.ofNat 8 i.val) = some i := by
  simp [slotOf, slot_mod_256]

/-! ### Header, body and CRC (12.1, R151, R164) -/

/-- What the CRC of a frame covers. -/
def frameFront (cls slot : Nat) (body : List Byte) : List Byte :=
  BitVec.ofNat 8 cls :: BitVec.ofNat 8 slot :: (u16 body.length ++ body)

theorem frameBytes_eq (cls slot : Nat) (body : List Byte) :
    frameBytes cls slot body = frameFront cls slot body ++ u32 (crc32 (frameFront cls slot body)).toNat := by
  simp [frameBytes, frameFront, u8, beBytes]

theorem frameFront_length (cls slot : Nat) (body : List Byte) :
    (frameFront cls slot body).length = body.length + 4 := by
  simp +arith [frameFront]

theorem frameBytes_length (cls slot : Nat) (body : List Byte) :
    (frameBytes cls slot body).length = body.length + 8 := by
  simp [frameBytes_eq, frameFront_length]

theorem byteAt_zero_frameBytes (cls slot : Nat) (body : List Byte) :
    byteAt (frameBytes cls slot body) 0 = BitVec.ofNat 8 cls := rfl

theorem byteAt_one_frameBytes (cls slot : Nat) (body : List Byte) :
    byteAt (frameBytes cls slot body) 1 = BitVec.ofNat 8 slot := rfl

theorem bodyOf_frameBytes (cls slot : Nat) (body : List Byte) : bodyOf (frameBytes cls slot body) = body := by
  rw [bodyOf, frameBytes_length, frameBytes_eq]
  simp [frameFront, u16, beBytes]

/-- The length of a body that a header can say is the length the header says. -/
theorem declaredLength_frameBytes {cls slot : Nat} {body : List Byte} (h : body.length < 65536) :
    declaredLength (frameBytes cls slot body) = body.length :=
  calc declaredLength (frameBytes cls slot body)
      = ofBytes (u16 body.length) := rfl
    _ = body.length % 65536 := ofBytes_beBytes 2 _
    _ = body.length := Nat.mod_eq_of_lt h

/-- R151: a frame of at most 1,032 bytes passes the integrity check when it is sent as laid out. -/
theorem frameIntact_frameBytes {cls slot : Nat} {body : List Byte} (h : body.length ≤ 1024) :
    frameIntact (frameBytes cls slot body) = true := by
  have hfront : (frameBytes cls slot body).length - 4 = (frameFront cls slot body).length := by
    rw [frameBytes_length, frameFront_length]
    omega
  have hcrc : (frameBytes cls slot body).drop (frameFront cls slot body).length =
      u32 (crc32 (frameFront cls slot body)).toNat := by
    rw [frameBytes_eq, List.drop_left]
  have hcovered : (frameBytes cls slot body).take (frameFront cls slot body).length = frameFront cls slot body := by
    rw [frameBytes_eq, List.take_left]
  rw [frameIntact, hfront, hcrc, hcovered, ofBytes_u32_toNat, declaredLength_frameBytes (by omega), frameBytes_length]
  simpa using h

/-! ### The CMD in a frame (12.2, R152) -/

/-- R152: a frame of class CMD for one of the eight slots, with a body of 12 bytes, has the structure of one. -/
theorem structureFault_cmd (i : Slot) {body : List Byte} (h : body.length = 12) :
    structureFault (frameBytes 1 i.val body) = none := by
  have hnotAbove : ¬ 7 < i.val := by omega
  have hnotAll : i.val ≠ 255 := by omega
  simp [structureFault, byteAt_zero_frameBytes, byteAt_one_frameBytes, bodyOf_frameBytes, h, slot_mod_256,
    hnotAbove, hnotAll]

/-- The body of a CMD frame: node tag, kind, generation, first block and count. -/
def cmdBody (tag kind : Byte) (gen : Gen) (lba : Lba) (count : BitVec 16) : List Byte :=
  tag :: kind :: (u16 gen.toNat ++ (u48 lba.toNat ++ u16 count.toNat))

theorem cmdBody_eq (tag kind : Byte) (gen : Gen) (lba : Lba) (count : BitVec 16) :
    u8 tag.toNat ++ u8 kind.toNat ++ u16 gen.toNat ++ u48 lba.toNat ++ u16 count.toNat =
      cmdBody tag kind gen lba count := by
  simp [cmdBody, u8_toNat]

theorem cmdBody_length (tag kind : Byte) (gen : Gen) (lba : Lba) (count : BitVec 16) :
    (cmdBody tag kind gen lba count).length = 12 := by
  simp [cmdBody]

theorem cmdIn_cmdBody (n : Node) (i : Slot) (tag kind : Byte) (gen : Gen) (lba : Lba) (count : BitVec 16) :
    cmdIn n (frameBytes 1 i.val (cmdBody tag kind gen lba count)) = some (.cmd n i tag kind gen lba count) := by
  have hgen : ((cmdBody tag kind gen lba count).drop 2).take 2 = u16 gen.toNat := rfl
  have hlba : ((cmdBody tag kind gen lba count).drop 4).take 6 = u48 lba.toNat := rfl
  have hcount : ((cmdBody tag kind gen lba count).drop 10).take 2 = u16 count.toNat := rfl
  simp only [cmdIn, byteAt_one_frameBytes, bodyOf_frameBytes, slotOf_ofNat_val, hgen, hlba, hcount,
    ofBytes_u16_toNat, ofBytes_u48_toNat, BitVec.ofNat_toNat, BitVec.setWidth_eq, Option.map_some]
  rfl

/-- Settles O14: the frame passes the checks of R151 and R152, its class is CMD, and each item of its body reads
back at its own width. -/
theorem cmdFrameReadsBack : Obligations.CmdFrameReadsBack := by
  intro n i tag kind gen lba count
  have hlength := cmdBody_length tag kind gen lba count
  have hintact := frameIntact_frameBytes (cls := 1) (slot := i.val) (hlength.trans_le (by decide))
  have hsound := structureFault_cmd i hlength
  rw [cmdBody_eq]
  simp only [commandOfFrame, hintact, hsound, byteAt_zero_frameBytes]
  exact cmdIn_cmdBody n i tag kind gen lba count

/-! ### A step with a command waiting -/

/-- Settles O1: the branch of `step` for a queue that is not empty. -/
theorem stepTakesTheFrontCommand : Obligations.StepTakesTheFrontCommand := by
  intro s c rest h
  unfold step
  rw [h]

end Sys2Proof.Machine
end
